-- ==== Sys2Proof/Word.lean ====
section
/-! DEFINITION. The bit vectors of the WN-44: bus words, bytes, byte masks and the 32-bit wrapping counts. -/

namespace Sys2Proof

/-- One 32-bit beat's data (R149). -/
abbrev Word := BitVec 32

/-- One byte. -/
abbrev Byte := BitVec 8

/-- The byte mask of a beat: bit `k` enables byte lane `k`, lane 0 at the lowest address (R149). -/
abbrev Lanes := BitVec 4

/-- A byte address from 0 to 0x3FFFFFF (R149). -/
abbrev Address := BitVec 26

/-- A value of the 32-bit wrapping millisecond count (R81). -/
abbrev Ms := BitVec 32

/-- A value of the 32-bit wrapping admission stamp counter (R7). -/
abbrev Stamp := BitVec 32

end Sys2Proof
end

