-- ==== Sys2Proof/Syntax.lean ====
section
/-! DEFINITION. The commands of the WN-44: one constructor of `Instr` per row of spec/opcode_table.json, with the
bus requests, returned beats and indices a row carries. -/

namespace Sys2Proof

/-- The four links (section 1.4 of 00_scope): 0 wired port, 1 client radio A, 2 client radio B, 3 radio backhaul. -/
inductive Link where
  | wired | radioA | radioB | backhaul
deriving DecidableEq, Repr

/-- The four traffic classes, in the order of the class hint (11.1). -/
inductive Cls where
  | game | interactive | bulk | update
deriving DecidableEq, Repr

/-- A station index, 0 to 127. -/
abbrev StationId := Fin 128

/-- One data beat with its identifier flags (R150). -/
structure Beat where
  /-- the 32 data bits -/
  data : Word
  /-- LAST: the final beat of its transfer -/
  last : Bool
  /-- RESPONSE: read data, not write data -/
  response : Bool
  /-- GOOD: free of error; a beat without it is error-marked -/
  good : Bool
deriving DecidableEq, Repr

/-- An upstream write as issued: byte address, byte mask and beats; the block size is the number of beats (R149). -/
structure UpWrite where
  addr : Address
  /-- the byte mask of a single-beat write; a longer write enables every lane -/
  mask : Lanes
  beats : List Beat
deriving DecidableEq, Repr

/-- An upstream read as issued: byte address and number of beats (R149). -/
structure UpRead where
  addr : Address
  beats : Nat
deriving DecidableEq, Repr

/-- The ways an upstream read reaches the part (R39, R153). -/
inductive ReadEvent where
  /-- the node issues the read at the upstream port -/
  | issued (r : UpRead)
  /-- a read that waited at the port because the read list held 8 is taken into the list -/
  | fromPort
  /-- the scheduler of the link takes the oldest egress read still waiting for it -/
  | byScheduler (l : Link)
deriving DecidableEq, Repr

/-- The commands and events of the part, one constructor per row of spec/opcode_table.json. -/
inductive Instr where
  /-- RESET_INPUT: the reset input, with the strap value PLC it samples -/
  | resetInput (plc : BitVec 3)
  /-- MILLISECOND -/
  | millisecond
  /-- MINUTE_BOUNDARY -/
  | minuteBoundary
  /-- QUIET_TIMER_EXPIRY -/
  | quietTimerExpiry
  /-- HOLD_TIMER_EXPIRY of a station -/
  | holdTimerExpiry (st : StationId)
  /-- FORWARD_TIMER_EXPIRY of a station -/
  | forwardTimerExpiry (st : StationId)
  /-- ARRIVAL_TIMER_EXPIRY of a station -/
  | arrivalTimerExpiry (st : StationId)
  /-- STOP_TIMEOUT -/
  | stopTimeout
  /-- COALESCING_TIMEOUT -/
  | coalescingTimeout
  /-- RUN -/
  | run (w : UpWrite)
  /-- STOP -/
  | stop (w : UpWrite)
  /-- DEVICE_COMMAND_NONE -/
  | deviceCommandNone (w : UpWrite)
  /-- DEVICE_COMMAND_UNKNOWN -/
  | deviceCommandUnknown (w : UpWrite)
  /-- WRITE_RETRY -/
  | writeRetry (w : UpWrite)
  /-- WATCHED_WRITE -/
  | watchedWrite (w : UpWrite)
  /-- WRITE_ENTRY_FREED -/
  | writeEntryFreed
  /-- DOWNSTREAM_GRANT -/
  | downstreamGrant
  /-- FORWARDED_READ_RETURN: the SRAM's beats -/
  | forwardedReadReturn (beats : List Beat)
  /-- READY_REPORT -/
  | readyReport (w : UpWrite)
  /-- STAGING_WRITE -/
  | stagingWrite (w : UpWrite)
  /-- ADMISSION_READ_ISSUE on a link -/
  | admissionReadIssue (l : Link)
  /-- ADMISSION_READ_RETURN: the SRAM's beats -/
  | admissionReadReturn (beats : List Beat)
  /-- STALL_SERVED -/
  | stallServed
  /-- EGRESS_READ -/
  | egressRead (e : ReadEvent)
  /-- ANSWER_READ_RETURN: the SRAM's beats -/
  | answerReadReturn (beats : List Beat)
  /-- EGRESS_WRITE -/
  | egressWrite (w : UpWrite)
  /-- RECEIVE_CONTROL_WRITE -/
  | receiveControlWrite (w : UpWrite)
  /-- COMMIT -/
  | commit (w : UpWrite)
  /-- VALIDATE -/
  | validate (w : UpWrite)
  /-- INVALIDATE -/
  | invalidate (w : UpWrite)
  /-- DEPART -/
  | depart (w : UpWrite)
  /-- EVICT -/
  | evict (w : UpWrite)
  /-- FORWARD -/
  | forward (w : UpWrite)
  /-- ABORT -/
  | abort (w : UpWrite)
  /-- RELEASE -/
  | release (w : UpWrite)
  /-- ARRIVE -/
  | arrive (w : UpWrite)
  /-- ADOPT -/
  | adopt (w : UpWrite)
  /-- SWEEP_STEP of a station -/
  | sweepStep (st : StationId)
  /-- DRAIN_STEP of a station -/
  | drainStep (st : StationId)
  /-- MARKER_FILL_END -/
  | markerFillEnd
  /-- MARKER_BUFFER_SERVED -/
  | markerBufferServed
  /-- MARKER_ENTRY_SERVED -/
  | markerEntryServed
  /-- CLOCK_SET -/
  | clockSet (w : UpWrite)
  /-- PROFILE_WRITE -/
  | profileWrite (w : UpWrite)
  /-- SESSION_OPEN -/
  | sessionOpen (w : UpWrite)
  /-- SESSION_CLOSE -/
  | sessionClose (w : UpWrite)
  /-- SESSION_COMMAND_NONE -/
  | sessionCommandNone (w : UpWrite)
  /-- SESSION_COMMAND_UNKNOWN -/
  | sessionCommandUnknown (w : UpWrite)
  /-- MAINTENANCE_INDEX_WRITE -/
  | maintenanceIndexWrite (w : UpWrite)
  /-- GAME_BURST_WRITE -/
  | gameBurstWrite (w : UpWrite)
  /-- COALESCING_THRESHOLD_WRITE -/
  | coalescingThresholdWrite (w : UpWrite)
  /-- CONSUMER_WRITE -/
  | consumerWrite (w : UpWrite)
  /-- IMAGE_WRITE -/
  | imageWrite (w : UpWrite)
  /-- LOAD_READ_RETURN: the SRAM's beats -/
  | loadReadReturn (beats : List Beat)
deriving DecidableEq, Repr

end Sys2Proof
end

