-- ==== Sys2Proof/Decode.lean ====
section
/-! DEFINITION. The reading of table words. spec/opcode_table.json gives none of its 54 rows any bits: the commands
are bus requests, returned beats, pin events and steps of the part, not encoded words. -/

namespace Sys2Proof

/-- The command a word of the table spells: none, since no row has bits. -/
def decodeTableWord (_nbits _w : Nat) : Option Instr := none

end Sys2Proof
end

