-- ==== Sys2Proof/Config.lean ====
section
/-! DEFINITION. What the part fixes: sizes, limits, intervals and defaults of the spec, and the one free value the
spec leaves open. -/

namespace Sys2Proof.Config

/-- Frame entries of the pool (R1). -/
abbrev poolSize : Nat := 2048

/-- The most entries of one station's hold list (R5). -/
abbrev holdLimit : Nat := 128

/-- The hold budget: the most entries of all hold lists together (R5). -/
abbrev holdBudget : Nat := 512

/-- Upstream write buffer entries (R151). -/
abbrev writeBuffer : Nat := 8

/-- The most upstream reads in the read list (R153). -/
abbrev readList : Nat := 8

/-- Marker buffers (section 6.6). -/
abbrev markerBuffers : Nat := 8

/-- Fill contexts of the image tracker (R135). -/
abbrev fillContexts : Nat := 8

/-- Units of the event ring (R178). -/
abbrev ringUnits : Nat := 512

/-- The span of the producer and consumer indices (R178). -/
abbrev indexSpan : Nat := 1024

/-- The stop timer's interval in milliseconds (R175). -/
abbrev stopInterval : Nat := 2000

/-- The coalescing threshold in force before the first successful load (R182). -/
abbrev defaultThreshold : Nat := 8

/-- The coalescing timeout in force before the first successful load (R182). -/
abbrev defaultTimeout : Nat := 10

/-- The default rate taken for a loaded value of 0, in units of 100 kbit/s (R26). -/
abbrev fallbackRate : Nat := 60

/-- The visits after which the rotation has chosen (R48). -/
abbrev rotationBound : Nat := 8196

/-- The last byte address of memory (R149). -/
abbrev lastAddress : Nat := 0x3FFFFFF

/-- The size of the policy area in bytes (R166). -/
abbrev policyBytes : Nat := 0x40000

/-- FREE VALUE. What the 2-bit last-command field of the device status word shows after a command whose code is
none of NONE, RUN and STOP: the field is "coded as the command" (11.3) and no code is given for an unknown command.
DESIGN CHOICE, log entry 1: safe, nothing constrains it. -/
opaque unknownCommandCode : Byte → BitVec 2

end Sys2Proof.Config
end

