-- ==== Sys2Proof/Machine/State.lean ====
section
/-! DEFINITION. The state of the WN-44 as plain data, block by block, its reset value, and the two reason types of a
step that does not go on. -/

namespace Sys2Proof.Machine

/-- The reasons a step could stop with a fault. There is none: the spec names no condition that stops the part
(an error is reported as an event record and the part goes on), so no meaning answers with a fault. Safe.
DESIGN CHOICE, log entry 35: safe. -/
inductive Fault where
deriving DecidableEq, Repr

/-- The reasons a step could be refused. -/
inductive Refusal where
  /-- Raised by `exec` for a command of the table that has no meaning yet; no arm does. Safe. -/
  | notModelled (mnemonic : String)
deriving DecidableEq, Repr

/-- Sparse data by key: key and value pairs with rising keys, and no pair whose value is what an unlisted key reads
as (`Table.wf`). The pool, the station table and the shadows are held so. -/
abbrev Table (α : Type) := List (Nat × α)

/-- One value for each of the four links. -/
structure PerLink (α : Type) where
  wired : α
  radioA : α
  radioB : α
  backhaul : α
deriving DecidableEq, Repr

/-- One value for each of the four classes. -/
structure PerClass (α : Type) where
  game : α
  interactive : α
  bulk : α
  update : α
deriving DecidableEq, Repr

/-! ### Names of states, codes and results -/

/-- The four device modes (R168). -/
inductive Mode where
  | transparent | loading | active | stopping
deriving DecidableEq, Repr

/-- The result of a command, a commit or a session commit (R65, R128, section 9.2). -/
inductive Result where
  | none | accepted | refusedState | refusedInvalid
deriving DecidableEq, Repr

/-- The six handoff states (R99). -/
inductive HandoffState where
  | resident | departing | forwarding | releasing | absent | arriving
deriving DecidableEq, Repr

/-- The four access states (R88); OPEN is `openAccess`. -/
inductive AccessState where
  | openAccess | bonus | blocked | paused
deriving DecidableEq, Repr

/-- The move in progress of a station: none, the DEPART sweep, or a drain of one of four kinds (R99). -/
inductive Operation where
  | idle | sweep | forwardDrain | returnDrain | arrivalDrain | nullifyDrain
deriving DecidableEq, Repr

/-- The kinds of the one handoff timer of a station (R99). -/
inductive TimerKind where
  | hold | forward | arrival
deriving DecidableEq, Repr

/-- The phases of a station's marker (R99). -/
inductive MarkerPhase where
  | none | waitBuffer | filling | waitEntry | sending
deriving DecidableEq, Repr

/-- Which kind of list holds a frame entry (R1). -/
inductive EntryState where
  | free | queued | held | inFlight
deriving DecidableEq, Repr

/-- How a frame came to be held (R1). -/
inductive Origin where
  | direct | forwarded | marker
deriving DecidableEq, Repr

/-- The status codes of a staging slot (R18, 11.1). -/
inductive SlotStatus where
  | sent | failed | blocked | notHere | queueFull | holdFull | malformed | returned | memoryError
deriving DecidableEq, Repr

/-- The routing of an event kind (R179). -/
inductive Routing where
  | off | log | line | now
deriving DecidableEq, Repr

/-- The state of the update session (R128). -/
inductive SessionState where
  | none | opened | closed
deriving DecidableEq, Repr

/-- The states of an image block (R134). -/
inductive BlockState where
  | empty | filling | verified | bad
deriving DecidableEq, Repr

/-- The causes of a BLOCK_BAD (R140, R141). -/
inductive BadCause where
  | mismatch | errorMark | partialBeat | order
deriving DecidableEq, Repr

/-- The reasons of a load failure (R170, R169). -/
inductive LoadReason where
  | none | ringSize | imageSize | ringAlign | imageAlign | startSlot | range | overlap | memory
deriving DecidableEq, Repr

/-- The two streams that meet at the downstream arbiter (R162). -/
inductive Stream where
  | forwarded | own
deriving DecidableEq, Repr

/-! ### Entry pool, links -/

/-- A frame entry (R1). The fields of a FREE entry are not read. -/
structure Entry where
  state : EntryState
  /-- staging link and slot; absent for a marker -/
  staging : Option (Link × Nat)
  station : Option StationId
  cls : Cls
  length : Nat
  cost : Nat
  stamp : Stamp
  origin : Origin
  exempt : Bool
  /-- present when IN_FLIGHT -/
  egressSlot : Option Nat
  /-- marker buffer and handoff sequence, present for origin MARKER -/
  marker : Option (Nat × Byte)
deriving DecidableEq, Repr

/-- A FREE entry, its optional fields absent (R1, R24). -/
def Entry.unused : Entry :=
  { state := .free, staging := none, station := none, cls := .game, length := 0, cost := 0, stamp := 0,
    origin := .direct, exempt := false, egressSlot := none, marker := none }

/-- One member of a link's in-flight set: its egress slot, its entry, and the answer copy (words 0 to 6) once the
answer has been given (R6, R51). -/
structure InFlight where
  slot : Nat
  entry : Nat
  copy : Option (List Word)
deriving DecidableEq, Repr

/-- The answer of a link whose staging read has not returned: the upstream read it answers, the egress slot, the
entry, and the words of the slot the read covers (R51). -/
structure Answering where
  read : Nat
  slot : Nat
  entry : Nat
  first : Nat
  count : Nat
deriving DecidableEq, Repr

/-- The working state of one link: admission (R8 to R10, R19, R22) and egress scheduling (section 3). -/
structure LinkState where
  /-- the four class queues, head first (R3) -/
  queues : PerClass (List Nat)
  /-- the number of DIRECT entries in the four queues (R22) -/
  directQueued : Nat
  /-- the low-water flag, armed or not (R22) -/
  lowArmed : Bool
  /-- the ready map: the flagged slots, rising (R8) -/
  ready : List Nat
  /-- the admission cursor (R9) -/
  cursor : Nat
  /-- the slot whose admission read is in flight (R10) -/
  admissionRead : Option Nat
  /-- the descriptor words a stalled link holds (R19) -/
  stall : Option (List Word)
  /-- the answer cursor (R39) -/
  answerCursor : Nat
  /-- the in-flight set (R6) -/
  inFlight : List InFlight
  /-- the answer whose staging read is in flight (R51) -/
  answering : Option Answering
  /-- the class credits (R32) -/
  credits : PerClass Int
  /-- the game tokens T (R33) -/
  tokens : Int
  /-- the rotation pointer (R49) -/
  pointer : Cls
  /-- the overhead O of the last successful load (R25) -/
  overhead : Option Nat
  /-- the default rate of the last successful load (R26) -/
  defaultRate : Option Nat
  /-- the insertion points of RETURN drains: station, class, and the queued entry the point stands after; a point
  at the front is not listed (R114) -/
  points : List (StationId × Cls × Nat)
deriving DecidableEq, Repr

/-- A link after the reset input (R24, R38, R64). -/
def LinkState.initial : LinkState :=
  { queues := ⟨[], [], [], []⟩, directQueued := 0, lowArmed := false, ready := [], cursor := 0,
    admissionRead := none, stall := none, answerCursor := 0, inFlight := [], answering := none,
    credits := ⟨0, 0, 0, 0⟩, tokens := 0, pointer := .game, overhead := none, defaultRate := none, points := [] }

/-! ### Stations -/

/-- The fields of a station record that the part reads (R65), as its words hold them. -/
structure StationRecord where
  address : BitVec 48
  /-- rate in units of 100 kbit/s; 0 means the link default -/
  rate : Nat
  profile : Nat
  pause : Bool
  /-- the bonus grant as written -/
  grant : Nat
  home : Link
  /-- the RSSI threshold's byte as written -/
  threshold : Nat
  hysteresis : Nat
  margin : Nat
  dwell : Nat
  /-- the neighbour estimate's byte as written -/
  neighbour : Nat
  /-- the initial presence's code as written -/
  presence : Nat
  /-- the handoff request's code as written -/
  request : Nat
  sequence : Byte
  valid : Bool
deriving DecidableEq, Repr

/-- No committed record (R80). -/
def StationRecord.blank : StationRecord :=
  { address := 0, rate := 0, profile := 0, pause := false, grant := 0, home := .wired, threshold := 0,
    hysteresis := 0, margin := 0, dwell := 0, neighbour := 0, presence := 0, request := 0, sequence := 0,
    valid := false }

/-- One station: its committed record and its working state (R65, R70, R76 to R79, R88, R89, R99). -/
structure Station where
  valid : Bool
  record : StationRecord
  lastResult : Result
  /-- the usage total in microseconds (R37) -/
  usage : Nat
  /-- the smoothed signal in 1/16 dBm (R76) -/
  signal : Option Int
  /-- the dwell run (R77) -/
  dwellRun : Nat
  /-- the hint flag, armed or not (R78) -/
  hintArmed : Bool
  /-- the activity mark of the current minute (R79) -/
  active : Bool
  /-- the access state; none for an invalid station (R88) -/
  access : Option AccessState
  /-- the working bonus count in minutes (R89) -/
  bonus : Nat
  /-- the handoff state; none for an invalid station (R99) -/
  handoff : Option HandoffState
  /-- the hold list, oldest first (R5) -/
  holdList : List Nat
  operation : Operation
  /-- the handoff state before the change that began the operation (R101) -/
  movedFrom : HandoffState
  /-- the entries the operation has taken so far (R101) -/
  moved : Nat
  /-- the working sequence (R99) -/
  sequence : Byte
  /-- the handoff timer with the millisecond count at which it expires (R99, R82) -/
  timer : Option (TimerKind × Ms)
  forwardCount : Nat
  carriedCount : Nat
  validationStamp : Stamp
  earlyMarker : Option Byte
  markerPhase : MarkerPhase
  markerBuffer : Option Nat
  markerSends : Nat
deriving DecidableEq, Repr

/-- A station after the reset input (R80, R98, R127). -/
def Station.initial : Station :=
  { valid := false, record := .blank, lastResult := .none, usage := 0, signal := none, dwellRun := 0,
    hintArmed := true, active := false, access := none, bonus := 0, handoff := none, holdList := [],
    operation := .idle, movedFrom := .resident, moved := 0, sequence := 0, timer := none, forwardCount := 0,
    carriedCount := 0, validationStamp := 0, earlyMarker := none, markerPhase := .none, markerBuffer := none,
    markerSends := 0 }

/-! ### Bus path -/

/-- A beat of a write with the lanes it enables. -/
structure WriteBeat where
  beat : Beat
  mask : Lanes
deriving DecidableEq, Repr

/-- A request of the forwarded stream (R162). -/
inductive ForwardedRequest where
  /-- a write-buffer entry: the address and beats as they will be forwarded -/
  | write (addr : Nat) (beats : List WriteBeat)
  /-- a forwarded read: the read list's number, the address, the beats, and the issue number that every own write
  it must follow is below -/
  | read (id : Nat) (addr : Nat) (beats : Nat) (after : Nat)
deriving DecidableEq, Repr

/-- An item of the forwarded stream with its acceptance number. -/
structure ForwardedItem where
  number : Nat
  request : ForwardedRequest
deriving DecidableEq, Repr

/-- An access of the part's own (section 8, opening). The three write-backs of R73, R132 and R180 that a later event
may join carry no data until they are granted. -/
inductive OwnAccess where
  | admissionRead (l : Link) (addr : Nat)
  | answerRead (l : Link) (addr : Nat)
  | loadRead (offset : Nat)
  /-- a write whose data is fixed at its issue -/
  | write (addr : Nat) (beats : List WriteBeat)
  /-- a status write-back of a station (R73), and how many NONE writes (R72) follow it -/
  | stationStatus (st : StationId) (nones : Nat)
  /-- a write-back of the update status word (R132), and how many NONE writes follow it -/
  | updateStatus (nones : Nat)
  /-- a write-back of the device status word, and whether the NONE write of R168 follows it -/
  | deviceStatus (w : Word) (thenNone : Bool)
  /-- the write of the producer index word (R180) -/
  | producerIndex
  /-- the fill of a station's marker buffer (R120) -/
  | fill (st : StationId) (addr : Nat) (beats : List WriteBeat)
deriving DecidableEq, Repr

/-- An item of the part's own stream: its issue number, and for a read the acceptance number that every forwarded
write it must follow is below (R162). -/
structure OwnItem where
  number : Nat
  after : Nat
  access : OwnAccess
deriving DecidableEq, Repr

/-- What the downstream port is doing: nothing, or taking the beats of a granted write whose end is an event. -/
inductive PortState where
  | idle
  | forwardedWrite
  | fill (st : StationId)
deriving DecidableEq, Repr

/-- To whom the beats of a granted read go (R163). -/
inductive ReadOwner where
  | forwarded (id : Nat)
  | admission (l : Link)
  | answer (l : Link)
  | load (offset : Nat)
deriving DecidableEq, Repr

/-- A read granted downstream whose beats have not returned; `live` is false once its owner has abandoned it. -/
structure Outstanding where
  owner : ReadOwner
  beats : Nat
  live : Bool
deriving DecidableEq, Repr

/-- How a read of the read list stands (R153). -/
inductive ReadProgress where
  /-- in the forwarded stream, or granted and not returned -/
  | forwarded
  /-- an egress read the scheduler of the link has not taken: slot and first word -/
  | waiting (l : Link) (slot : Nat) (first : Nat)
  /-- an egress read whose answer waits on its staging read -/
  | answering (l : Link)
  /-- the answer is complete and waits for the reads before it -/
  | ready (beats : List Beat)
deriving DecidableEq, Repr

/-- A read of the read list; `after` is the own-stream issue number at its acceptance (R162). -/
structure ReadEntry where
  id : Nat
  after : Nat
  addr : Nat
  beats : Nat
  progress : ReadProgress
deriving DecidableEq, Repr

/-- The bus path (section 8). DESIGN CHOICE, log entry 33: safe. -/
structure BusPath where
  /-- the forwarded stream, head first; its writes are the occupied write-buffer entries -/
  forwarded : List ForwardedItem
  /-- the part's own stream, head first -/
  own : List OwnItem
  port : PortState
  lastGranted : Stream
  /-- reads granted and not returned, in the order the SRAM returns them -/
  outstanding : List Outstanding
  /-- the read list, in request order -/
  reads : List ReadEntry
  /-- reads that wait at the upstream port -/
  portReads : List UpRead
  nextForwarded : Nat
  nextOwn : Nat
  nextRead : Nat
deriving DecidableEq, Repr

/-! ### Admission, GAME_ACTIVE, clocks, handoff controller -/

/-- The parts of the admission unit that are not per link (R2, R7, R20). -/
structure AdmissionUnit where
  /-- the free set, head first (R2) -/
  freeSet : List Nat
  /-- the admission stamp counter (R7) -/
  stampCounter : Stamp
  /-- the last link served (R20) -/
  lastServed : Link
  /-- release events a waiter has not yet been served with (R20) -/
  releases : Nat
deriving DecidableEq, Repr

/-- GAME_ACTIVE and its quiet timer (R62). -/
structure GameFlag where
  active : Bool
  quiet : Option Ms
deriving DecidableEq, Repr

/-- The time base and the week clock (R81, R83). -/
structure Clock where
  /-- the millisecond count -/
  now : Ms
  /-- the millisecond within its group of 125 -/
  inGroup : Nat
  minute : Nat
  second : Nat
  subSecond : Nat
  isSet : Bool
  /-- the second is about to wrap from 59 to 0: the minute boundary of this millisecond event is not yet taken -/
  boundaryDue : Bool
deriving DecidableEq, Repr

/-- The parts of the handoff controller that are not per station (section 6.6). -/
structure HandoffUnit where
  /-- the marker buffers in use -/
  busyBuffers : List Nat
  /-- the pending-marker list -/
  pendingMarkers : List StationId
deriving DecidableEq, Repr

/-! ### Image tracker and apply gate -/

/-- A fill context in use (R135). -/
structure FillContext where
  block : Nat
  next : Nat
  crc : Word
  last : Ms
deriving DecidableEq, Repr

/-- The image tracker (R128, R134, R135). -/
structure ImageTracker where
  base : Nat
  capacity : Nat
  session : SessionState
  count : Nat
  lastResult : Result
  /-- the block map; an unlisted block is EMPTY -/
  blocks : Table BlockState
  verified : Nat
  /-- the fill contexts in use, by number -/
  contexts : Table FillContext
deriving DecidableEq, Repr

/-- The reason mask of the apply gate (R143). -/
structure Reasons where
  image : Bool
  clock : Bool
  window : Bool
  game : Bool
  moving : Bool
deriving DecidableEq, Repr

/-- The apply gate (R143). -/
structure ApplyGate where
  isOpen : Bool
  reasons : Reasons
  moving : Nat
deriving DecidableEq, Repr

/-! ### Event writer -/

/-- A record of the record list (R178). -/
structure EventRecord where
  index : Nat
  length : Nat
  routing : Routing
  written : Ms
deriving DecidableEq, Repr

/-- The event writer (R178, R181, R182). -/
structure EventWriter where
  producer : Nat
  consumer : Nat
  records : List EventRecord
  /-- the missed mask, bit `k` for kind `k` -/
  missed : BitVec 32
  missedCount : Nat
  /-- the event line: asserted or not -/
  line : Bool
deriving DecidableEq, Repr

/-! ### Loader -/

/-- The configuration of one link as a load takes it (11.3). -/
structure LinkConfig where
  stagingBase : Nat
  stagingSize : Nat
  stagingStart : Nat
  egressBase : Nat
  egressSize : Nat
  egressStart : Nat
  receiveBase : Nat
  receiveSize : Nat
  defaultRate : Nat
  preamble : Nat
  gap : Nat
  ack : Nat
deriving DecidableEq, Repr

/-- The load-time values a load takes at the end of its CONTROL phase: the rings of the region map, the link
figures, the image base and the capacity (R169, R171). -/
structure RegionMap where
  links : PerLink LinkConfig
  imageBase : Nat
  capacity : Nat
deriving DecidableEq, Repr

/-- A load in progress (R169, R171). -/
structure Load where
  /-- the load progress: the offset of the next read to be issued -/
  next : Nat
  /-- the offset of the read issued and not returned -/
  reading : Option Nat
  /-- the load copy, by policy-area word number -/
  copy : Table Word
  /-- writes held for the read in flight: word number, data, lanes -/
  held : List (Nat × Word × Lanes)
deriving DecidableEq, Repr

/-- The loader (section 9). -/
structure Loader where
  mode : Mode
  /-- the strap value PLC (R166) -/
  plc : BitVec 3
  /-- the region map in force; none outside the REST phase, ACTIVE and STOPPING -/
  map : Option RegionMap
  load : Option Load
  /-- a load has succeeded since the reset input -/
  loaded : Bool
  stopTimer : Option Ms
  /-- the code of the last command taken -/
  lastCommand : Byte
  lastResult : Result
  failure : LoadReason
  subject : Nat
  abandoned : Nat
deriving DecidableEq, Repr

/-! ### The whole part -/

/-- What the part drives on its two ports (the model's own field; the event line is in `EventWriter`).
DESIGN CHOICE, log entry 14: safe. -/
inductive Output where
  /-- an upstream write is accepted -/
  | writeAccepted
  /-- an upstream write is answered RETRY (R152) -/
  | writeRetry
  /-- the beats of an upstream read's answer (R153) -/
  | readAnswer (beats : List Beat)
  /-- a write granted downstream -/
  | downstreamWrite (addr : Nat) (beats : List WriteBeat)
  /-- a read granted downstream -/
  | downstreamRead (addr : Nat) (beats : Nat)
deriving DecidableEq, Repr

/-- The state of the WN-44. DESIGN CHOICE, log entry 6: safe. -/
structure State where
  /-- commands waiting, first in first out (the model's own field) -/
  pending : List Instr
  /-- what the last command drove on the ports (the model's own field) -/
  out : List Output
  bus : BusPath
  admission : AdmissionUnit
  /-- the frame entries; an unlisted entry is FREE -/
  entries : Table Entry
  links : PerLink LinkState
  game : GameFlag
  clock : Clock
  /-- the stations; an unlisted one is as after the reset input -/
  stations : Table Station
  handoff : HandoffUnit
  image : ImageTracker
  gate : ApplyGate
  events : EventWriter
  loader : Loader
  /-- the shadows of the policy area's watched words, by word number (R155); an unlisted word is 0. They hold the
  control block, the game flow table, the pending copies of the station records, the profiles and the manifest. -/
  shadow : Table Word
deriving DecidableEq, Repr

/-- The bus path after the reset input (R165); reads granted before it still return their beats, to no one
(DESIGN CHOICE, log entry 31: safe), and reads that waited at the upstream port are gone (DESIGN CHOICE, log entry 42:
unsafe). -/
def BusPath.initial (outstanding : List Outstanding) : BusPath :=
  { forwarded := [], own := [], port := .idle, lastGranted := .own, outstanding := outstanding, reads := [],
    portReads := [], nextForwarded := 0, nextOwn := 0, nextRead := 0 }

/-- The whole part after the reset input with strap value `plc` (R24, R38, R64, R80, R98, R127, R148, R165, R177,
R184), but for the command queue and the reads the SRAM still has to return. DESIGN CHOICE, log entry 3: unsafe. -/
def State.afterReset (plc : BitVec 3) (pending : List Instr) (outstanding : List Outstanding) : State :=
  { pending := pending
    out := []
    bus := .initial outstanding
    admission := { freeSet := List.range Config.poolSize, stampCounter := 0, lastServed := .backhaul, releases := 0 }
    entries := []
    links := ⟨.initial, .initial, .initial, .initial⟩
    game := { active := false, quiet := none }
    clock := { now := 0, inGroup := 0, minute := 0, second := 0, subSecond := 0, isSet := false,
               boundaryDue := false }
    stations := []
    handoff := { busyBuffers := [], pendingMarkers := [] }
    image := { base := 0, capacity := 0, session := .none, count := 0, lastResult := .none, blocks := [],
               verified := 0, contexts := [] }
    gate := { isOpen := false, reasons := ⟨false, false, false, false, false⟩, moving := 0 }
    events := { producer := 0, consumer := 0, records := [], missed := 0, missedCount := 0, line := false }
    loader := { mode := .transparent, plc := plc, map := none, load := none, loaded := false, stopTimer := none,
                lastCommand := 0, lastResult := .none, failure := .none, subject := 0, abandoned := 0 }
    shadow := [] }

/-- The part right after reset, with an empty command queue. The strap pins are outside the part: PLC 0 here is the
model's choice; the command RESET_INPUT samples any value. DESIGN CHOICE, log entry 2: unsafe. -/
def State.reset : State := State.afterReset 0 [] []

end Sys2Proof.Machine
end

