-- ==== Sys2Proof/Machine/Ops.lean ====
section
/-! DEFINITION. Named operations over the state: sparse tables, byte lanes and bit fields, links and classes,
stations and entries, and the part's own stream and outputs. -/

namespace Sys2Proof.Machine

open Sys2Proof

/-! ### Sparse tables -/

/-- The value listed under a key. -/
def Table.find {α : Type} : Table α → Nat → Option α
  | [], _ => none
  | (j, v) :: m, k => if j = k then some v else Table.find m k

/-- The value a key reads as, `d` where it is not listed. -/
def Table.read {α : Type} (d : α) (m : Table α) (k : Nat) : α := (Table.find m k).getD d

/-- List a value under a key, at its place in the rising order. -/
def Table.insert {α : Type} (k : Nat) (v : α) : Table α → Table α
  | [] => [(k, v)]
  | (j, u) :: m =>
    if k < j then (k, v) :: (j, u) :: m
    else if j = k then (k, v) :: m
    else (j, u) :: Table.insert k v m

/-- Take a key out of the list. -/
def Table.erase {α : Type} (k : Nat) (m : Table α) : Table α := m.filter (fun c => c.1 ≠ k)

/-- Write a value under a key: a value equal to the default is not listed. -/
def Table.write {α : Type} [DecidableEq α] (d : α) (m : Table α) (k : Nat) (v : α) : Table α :=
  if v = d then Table.erase k m else Table.insert k v m

/-- The canonical form: rising keys, and no listed value equal to the default. -/
abbrev Table.wf {α : Type} (d : α) (m : Table α) : Prop :=
  m.Pairwise (fun a b => a.1 < b.1) ∧ ∀ c ∈ m, c.2 ≠ d

/-! ### Byte lanes and bit fields -/

/-- Byte lane `k` is enabled. -/
def lane (m : Lanes) (k : Nat) : Bool := m.getLsbD k

/-- The bits of the enabled lanes. -/
def laneBits (m : Lanes) : Word :=
  (if lane m 0 then 0x000000FF else 0) ||| (if lane m 1 then 0x0000FF00 else 0) |||
  (if lane m 2 then 0x00FF0000 else 0) ||| (if lane m 3 then 0xFF000000 else 0)

/-- A word after a write of its enabled lanes. -/
def mergeLanes (old new : Word) (m : Lanes) : Word := (old &&& ~~~(laneBits m)) ||| (new &&& laneBits m)

/-- Bits `lo` to `lo + len - 1` of a word, as a number. -/
def bits (w : Word) (lo len : Nat) : Nat := w.toNat / 2 ^ lo % 2 ^ len

/-- Bit `k` of a word. -/
def bit (w : Word) (k : Nat) : Bool := w.getLsbD k

/-- A byte read as a signed number. -/
def signedByte (b : Nat) : Int := if b < 128 then (b : Int) else (b : Int) - 256

/-- A value clamped into `lo..hi`. -/
def clamp (lo hi v : Nat) : Nat := max lo (min hi v)

/-- A value clamped into `lo..hi`. -/
def clampInt (lo hi v : Int) : Int := max lo (min hi v)

/-! ### Links and classes -/

/-- The number of a link. -/
def linkNumber : Link → Nat
  | .wired => 0 | .radioA => 1 | .radioB => 2 | .backhaul => 3

/-- The link of a number, modulo 4. -/
def linkOf (n : Nat) : Link :=
  match n % 4 with
  | 0 => .wired | 1 => .radioA | 2 => .radioB | _ => .backhaul

/-- The links in ascending order. -/
def allLinks : List Link := [.wired, .radioA, .radioB, .backhaul]

/-- The code of a class (11.1). -/
def clsCode : Cls → Nat
  | .game => 0 | .interactive => 1 | .bulk => 2 | .update => 3

/-- The class of a hint code, modulo 4 (11.1). -/
def clsOf (n : Nat) : Cls :=
  match n % 4 with
  | 0 => .game | 1 => .interactive | 2 => .bulk | _ => .update

/-- The class after this one in the rotation's circular order (section 3.2.1). -/
def clsAfter : Cls → Cls
  | .game => .interactive | .interactive => .bulk | .bulk => .update | .update => .game

/-- The classes in the order GAME to UPDATE. -/
def allClasses : List Cls := [.game, .interactive, .bulk, .update]

/-- All stations, ascending. -/
def allStations : List StationId := List.finRange 128

def PerLink.get {α : Type} (p : PerLink α) : Link → α
  | .wired => p.wired | .radioA => p.radioA | .radioB => p.radioB | .backhaul => p.backhaul

def PerLink.put {α : Type} (p : PerLink α) (l : Link) (x : α) : PerLink α :=
  match l with
  | .wired => { p with wired := x }
  | .radioA => { p with radioA := x }
  | .radioB => { p with radioB := x }
  | .backhaul => { p with backhaul := x }

def PerLink.of {α : Type} (f : Link → α) : PerLink α := ⟨f .wired, f .radioA, f .radioB, f .backhaul⟩

def PerClass.get {α : Type} (p : PerClass α) : Cls → α
  | .game => p.game | .interactive => p.interactive | .bulk => p.bulk | .update => p.update

def PerClass.put {α : Type} (p : PerClass α) (c : Cls) (x : α) : PerClass α :=
  match c with
  | .game => { p with game := x }
  | .interactive => { p with interactive := x }
  | .bulk => { p with bulk := x }
  | .update => { p with update := x }

/-! ### Parts of the state -/

def State.link (s : State) (l : Link) : LinkState := s.links.get l

def State.setLink (s : State) (l : Link) (x : LinkState) : State := { s with links := s.links.put l x }

def State.queue (s : State) (l : Link) (c : Cls) : List Nat := (s.link l).queues.get c

def State.setQueue (s : State) (l : Link) (c : Cls) (q : List Nat) : State :=
  s.setLink l { s.link l with queues := (s.link l).queues.put c q }

def State.entry (s : State) (i : Nat) : Entry := Table.read .unused s.entries i

def State.setEntry (s : State) (i : Nat) (e : Entry) : State :=
  { s with entries := Table.write .unused s.entries i e }

def State.station (s : State) (st : StationId) : Station := Table.read .initial s.stations st.val

def State.setStation (s : State) (st : StationId) (x : Station) : State :=
  { s with stations := Table.write .initial s.stations st.val x }

/-- The entries of one state (R1), by number. -/
def entriesIn (s : State) (st : EntryState) : List Nat :=
  (s.entries.filter (fun c => c.2.state = st)).map Prod.fst

/-- The hold budget count: the number of HELD entries in the pool (R5). -/
def holdCount (s : State) : Nat := (entriesIn s .held).length

/-- The station is valid and in the given handoff state. -/
def State.inHandoff (s : State) (st : StationId) (h : HandoffState) : Bool :=
  (s.station st).valid && decide ((s.station st).handoff = some h)

/-! ### Millisecond count, timers -/

/-- The millisecond at which a timer started now with interval `n` expires: a start between two millisecond events
counts as made at the later one (R82). DEDUCED, log entry 8: unsafe. -/
def expiryAfter (s : State) (n : Nat) : Ms := s.clock.now + 1 + BitVec.ofNat 32 n

/-- The age of a millisecond (R138, R182). -/
def msAge (s : State) (t : Ms) : Nat := (s.clock.now - t).toNat

/-- The age of a stamp, with the counter at `n` (R7). -/
def stampAge (n t : Stamp) : Nat := (n - t).toNat

/-- Entry `i` is older than entry `j`: the greater age, and the lower index where the ages are equal (R7). -/
def olderEntry (s : State) (i j : Nat) : Bool :=
  let a := stampAge s.admission.stampCounter (s.entry i).stamp
  let b := stampAge s.admission.stampCounter (s.entry j).stamp
  decide (b < a) || (decide (a = b) && decide (i < j))

/-! ### Outputs and the part's own stream -/

/-- Drive an output. -/
def emit (o : Output) (s : State) : State := { s with out := s.out ++ [o] }

/-- Issue an own access: it joins the tail of the own stream (R162). -/
def issue (a : OwnAccess) (s : State) : State :=
  { s with bus := { s.bus with
      own := s.bus.own ++ [{ number := s.bus.nextOwn, after := s.bus.nextForwarded, access := a }]
      nextOwn := s.bus.nextOwn + 1 } }

/-- The beats of a write of the part's own: GOOD, LAST on the final beat, every lane enabled (R150). -/
def ownBeats : List Word → List WriteBeat
  | [] => []
  | [w] => [⟨⟨w, true, false, true⟩, 0xF⟩]
  | w :: ws => ⟨⟨w, false, false, true⟩, 0xF⟩ :: ownBeats ws

/-- The beats of an answer the part gives: RESPONSE and GOOD, LAST on the final beat (R150). -/
def answerBeats : List Word → List Beat
  | [] => []
  | [w] => [⟨w, true, true, true⟩]
  | w :: ws => ⟨w, false, true, true⟩ :: answerBeats ws

/-- Issue a write of whole words (R150). -/
def issueWords (addr : Nat) (ws : List Word) (s : State) : State := issue (.write addr (ownBeats ws)) s

/-- Issue a single-beat write that enables the given lanes. -/
def issueLanes (addr : Nat) (m : Lanes) (w : Word) (s : State) : State :=
  issue (.write addr [⟨⟨w, true, false, true⟩, m⟩]) s

/-- The first own access that waits and satisfies `p` is replaced by `f` of it; `none` where none does. -/
def replaceFirst (p : OwnAccess → Bool) (f : OwnAccess → OwnAccess) : List OwnItem → Option (List OwnItem)
  | [] => none
  | i :: is =>
    if p i.access then some ({ i with access := f i.access } :: is)
    else (replaceFirst p f is).map (i :: ·)

/-- Issue a write-back that a waiting one of the same kind serves (R73, R132): the waiting one is changed by `f`,
else `a` is issued. DEDUCED, log entry 19: unsafe. -/
def issueJoined (p : OwnAccess → Bool) (f : OwnAccess → OwnAccess) (a : OwnAccess) (s : State) : State :=
  match replaceFirst p f s.bus.own with
  | some own => { s with bus := { s.bus with own := own } }
  | none => issue a s

def isStatusOf (st : StationId) : OwnAccess → Bool
  | .stationStatus t _ => t = st
  | _ => false

def isUpdateStatus : OwnAccess → Bool
  | .updateStatus _ => true
  | _ => false

def isProducer : OwnAccess → Bool
  | .producerIndex => true
  | _ => false

def addNones (n : Nat) : OwnAccess → OwnAccess
  | .stationStatus t k => .stationStatus t (k + n)
  | .updateStatus k => .updateStatus (k + n)
  | a => a

/-- Issue the status write-back of a station (R73), followed by `nones` NONE writes (R72). -/
def issueStationStatus (st : StationId) (nones : Nat) (s : State) : State :=
  issueJoined (isStatusOf st) (addNones nones) (.stationStatus st nones) s

/-- Issue the write-back of the update status word, followed by `nones` NONE writes (R132). -/
def issueUpdateStatus (nones : Nat) (s : State) : State :=
  issueJoined isUpdateStatus (addNones nones) (.updateStatus nones) s

/-- Issue the producer index write behind the record's writes. A waiting one serves this record too: it keeps its place
and its issue number, so that the reads it holds stay held (R162), and carries P as it stands when it is granted
(R180). DEDUCED, log entry 15: unsafe. -/
def issueProducer (s : State) : State := issueJoined isProducer id .producerIndex s

/-! ### The policy area and the shadows -/

/-- The policy area base: PLC times 8 MiB (R165, R166). -/
def policyBase (s : State) : Nat := s.loader.plc.toNat * 0x800000

/-- The shadow of the policy-area word at byte offset `off`. -/
def shadowWord (s : State) (off : Nat) : Word := Table.read 0 s.shadow (off / 4)

/-- Merge the enabled lanes of a write into a copy of the policy area. -/
def mergeWord (t : Table Word) (off : Nat) (w : Word) (m : Lanes) : Table Word :=
  Table.write 0 t (off / 4) (mergeLanes (Table.read 0 t (off / 4)) w m)

/-- The ring settings of a link in the region map in force; all zero where there is none.
DESIGN CHOICE, log entry 36: safe. -/
def ringsOf (s : State) (l : Link) : LinkConfig :=
  match s.loader.map with
  | some m => m.links.get l
  | none => ⟨0, 0, 0, 0, 0, 0, 0, 0, 0, 0, 0, 0⟩

/-- Slot `i + 1` modulo a ring's size (R9, R39). -/
def nextSlot (i size : Nat) : Nat := (i + 1) % size

/-- Insert a slot into a rising list of flagged slots. -/
def insertSlot (n : Nat) : List Nat → List Nat
  | [] => [n]
  | m :: ms => if n < m then n :: m :: ms else if n = m then m :: ms else m :: insertSlot n ms

/-- Run an operation for each member of a list in turn. -/
def forEach {α : Type} (f : α → State → State) : List α → State → State
  | [], s => s
  | x :: xs, s => forEach f xs (f x s)

end Sys2Proof.Machine
end

