-- ==== Sys2Proof/Machine/Operands.lean ====
section
/-! DEFINITION. How the part reads what software and the link DMA engines write: descriptors, station records,
profiles, flow entries, the control block and the addresses of bus requests (section 11, R149, R154). -/

namespace Sys2Proof.Machine

open Sys2Proof

/-! ### Control block fields (11.3, R187) -/

/-- The 16-bit quantum field of a link and class as written. -/
def quantumField (s : State) (l : Link) (c : Cls) : Nat :=
  bits (shadowWord s (0x0C0 + 16 * linkNumber l + 4 * clsCode c)) 0 16

/-- The quantum of a link and class: below 64 acts as 64, above 16383 as 16383 (R31). -/
def quantum (s : State) (l : Link) (c : Cls) : Nat := clamp 64 16383 (quantumField s l c)

/-- The cap of a class queue (R4, R187). DESIGN CHOICE for its default, log entry 39: unsafe. -/
def queueCap (s : State) (l : Link) (c : Cls) : Nat :=
  clamp 1 1024 (bits (shadowWord s (0x0C0 + 16 * linkNumber l + 4 * clsCode c)) 16 16)

/-- The low-water mark of a link (R22, R187). -/
def lowWaterMark (s : State) (l : Link) : Nat := clamp 0 1024 (bits (shadowWord s (0x100 + 4 * linkNumber l)) 0 16)

/-- The game rate G of a link, above 1000 acting as 1000 (R33). -/
def gameRate (s : State) (l : Link) : Nat := clamp 0 1000 (bits (shadowWord s (0x110 + 4 * linkNumber l)) 0 16)

/-- The game burst B of a link (R33). -/
def gameBurst (s : State) (l : Link) : Nat := bits (shadowWord s (0x110 + 4 * linkNumber l)) 16 16

/-- The hold interval (R116, R187). DESIGN CHOICE for its default, log entry 39: unsafe. -/
def holdInterval (s : State) : Nat := clamp 100 10000 (bits (shadowWord s 0x120) 0 16)

/-- The forward interval (R116, R187). DESIGN CHOICE for its default, log entry 39: unsafe. -/
def forwardInterval (s : State) : Nat := clamp 500 60000 (bits (shadowWord s 0x124) 0 16)

/-- The arrival interval (R116, R187). DESIGN CHOICE for its default, log entry 39: unsafe. -/
def arrivalInterval (s : State) : Nat := clamp 100 10000 (bits (shadowWord s 0x128) 0 16)

/-- The game quiet interval (R62, R187). The default of 2000 that R62 names has no effect of its own: the field is read
as it stands, and a field of 0 reads as 100. DESIGN CHOICE, log entry 39: unsafe. -/
def quietInterval (s : State) : Nat := clamp 100 60000 (bits (shadowWord s 0x12C) 0 16)

/-- The coalescing threshold in force (R182, R187). -/
def coalescingThreshold (s : State) : Nat :=
  if s.loader.loaded then clamp 1 64 (bits (shadowWord s 0x138) 0 8) else Config.defaultThreshold

/-- The coalescing timeout in force (R182, R187). -/
def coalescingTimeout (s : State) : Nat :=
  if s.loader.loaded then clamp 0 1000 (bits (shadowWord s 0x138) 16 16) else Config.defaultTimeout

/-- A routing code (11.3). -/
def routingOf : Nat → Routing
  | 0 => .off | 1 => .log | 2 => .line | _ => .now

/-- The routing field of a kind (11.3). -/
def routingField (s : State) (k : Nat) : Routing :=
  routingOf (bits (shadowWord s (0x130 + 4 * (k / 16))) (2 * (k % 16)) 2)

/-- The link configuration a load copy holds (11.3). -/
def linkConfigOf (t : Table Word) (l : Link) : LinkConfig :=
  let w (k : Nat) : Word := Table.read 0 t ((0x040 + 32 * linkNumber l) / 4 + k)
  { stagingBase := (w 0).toNat
    stagingSize := bits (w 1) 0 16
    stagingStart := bits (w 1) 16 16
    egressBase := (w 2).toNat
    egressSize := bits (w 3) 0 16
    egressStart := bits (w 3) 16 16
    receiveBase := (w 4).toNat
    receiveSize := bits (w 5) 0 16
    defaultRate := bits (w 6) 0 16
    preamble := bits (w 6) 16 8
    gap := bits (w 6) 24 8
    ack := bits (w 7) 0 9 }

/-- The load-time values of a load copy (R169). -/
def regionMapOf (t : Table Word) : RegionMap :=
  { links := .of (linkConfigOf t)
    imageBase := (Table.read 0 t (0x180 / 4)).toNat
    capacity := bits (Table.read 0 t (0x184 / 4)) 0 16 }

/-! ### Station records (11.2, R186) -/

/-- The record whose words a copy of the policy area holds for a station. -/
def recordOf (t : Table Word) (st : StationId) : StationRecord :=
  let w (k : Nat) : Word := Table.read 0 t ((0x2000 + 64 * st.val) / 4 + k)
  { address := BitVec.ofNat 48 ((w 0).toNat + 2 ^ 32 * bits (w 1) 0 16)
    rate := bits (w 1) 16 16
    profile := bits (w 2) 0 5
    pause := bit (w 2) 8
    grant := bits (w 2) 16 16
    home := linkOf (bits (w 2) 9 2)
    threshold := bits (w 3) 0 8
    hysteresis := bits (w 3) 8 7
    margin := bits (w 3) 16 7
    dwell := bits (w 3) 24 8
    neighbour := bits (w 4) 0 8
    presence := bits (w 4) 8 8
    request := bits (w 15) 0 8
    sequence := BitVec.ofNat 8 (bits (w 15) 8 8)
    valid := bit (w 15) 16 }

/-- The RSSI threshold in dBm: 1 to 127 act as −1 (R186). -/
def thresholdOf (r : StationRecord) : Int := if r.threshold < 128 then -1 else signedByte r.threshold

/-- The neighbour estimate in dBm; 0 and 1 to 127 are none (R65, R186). -/
def neighbourOf (r : StationRecord) : Option Int :=
  if r.neighbour < 128 then none else some (signedByte r.neighbour)

/-- The bonus grant in minutes: above 1440 acts as 1440 (R89). -/
def grantOf (r : StationRecord) : Nat := min r.grant 1440

/-- The initial presence of a record whose presence code is 0 or 1 (11.2). -/
def presenceOf (r : StationRecord) : HandoffState := if r.presence = 0 then .resident else .absent

/-- The eight handoff requests by code, NONE left out (11.2). -/
inductive Request where
  | depart | evict | forward | abort | release | arrive | adopt
deriving DecidableEq, Repr

/-- The request of a code; none for NONE (R65). A code above 7 is no request (R186). -/
def requestOf : Nat → Option Request
  | 1 => some .depart | 2 => some .evict | 3 => some .forward | 4 => some .abort
  | 5 => some .release | 6 => some .arrive | 7 => some .adopt | _ => none

/-- The code of a request (11.2). -/
def requestCode : Request → Nat
  | .depart => 1 | .evict => 2 | .forward => 3 | .abort => 4 | .release => 5 | .arrive => 6 | .adopt => 7

/-! ### Staging descriptors (11.1, R185) -/

/-- A word of a descriptor; 0 beyond its end. -/
def wordAt (ws : List Word) (k : Nat) : Word := ws.getD k 0

/-- The length field. -/
def frameLength (d : List Word) : Nat := bits (wordAt d 7) 0 14

/-- The station field. -/
def frameStation (d : List Word) : Nat := bits (wordAt d 5) 0 8

/-- The exempt flag. -/
def frameExempt (d : List Word) : Bool := bit (wordAt d 5) 8

/-- The flow hash. -/
def frameHash (d : List Word) : Word := wordAt d 6

/-- The class hint. -/
def frameHint (d : List Word) : Cls := clsOf (bits (wordAt d 7) 14 2)

/-- The station of a station field: 128 to 255 name none (R12). -/
def stationOfField (n : Nat) : Option StationId := if h : n < 128 then some ⟨n, h⟩ else none

/-- A write of a staging control word is a ready report: lanes 2 and 3 enabled, READY set, owner PART (R185). -/
def isReadyReport (w : Word) (m : Lanes) : Bool :=
  lane m 2 && lane m 3 && bit w 16 && decide (bits w 24 2 = 1)

/-! ### Game flow table (11.2, R13, R14) -/

/-- Flow entry `f` hits a frame of the given hash, staging link and station. -/
def flowHits (s : State) (f : Nat) (hash : Word) (l : Link) (st : Option StationId) : Bool :=
  let w0 := shadowWord s (0x1000 + 16 * f)
  let w1 := shadowWord s (0x1000 + 16 * f + 4)
  bit w1 31 && decide (w0 = hash) && bit w1 (linkNumber l) &&
    (decide (128 ≤ bits w1 8 8) || decide (st.map Fin.val = some (bits w1 8 8)))

/-- The game flow table holds a flow-table hit for the frame (R14). -/
def flowHit (s : State) (hash : Word) (l : Link) (st : Option StationId) : Bool :=
  (List.range 64).any (fun f => flowHits s f hash l st)

/-! ### Profiles (11.2, R86, R87) -/

/-- Word `k` of profile `p`. -/
def profileWord (s : State) (p k : Nat) : Word := shadowWord s (0x4000 + 64 * p + 4 * k)

/-- A window word contains minute `m` (R86). -/
def windowContains (w : Word) (m : Nat) : Bool :=
  let start := bits w 0 14
  let finish := bits w 16 14
  bit w 31 && decide (start ≤ 10079) && decide (finish ≤ 10079) &&
    ((decide (start < finish) && decide (start ≤ m) && decide (m < finish)) ||
     (decide (finish < start) && (decide (start ≤ m) || decide (m < finish))))

/-- Profile `p` gives ALLOW, by the clock as it stands (R87). -/
def profileAllows (s : State) (p : Nat) : Bool :=
  let w := profileWord s p 0
  if s.clock.isSet then
    if (List.range 8).any (fun i => windowContains (profileWord s p (1 + i)) s.clock.minute) then bit w 0
    else !bit w 0
  else !bit w 1

/-! ### Receive control words (11.1, R185) -/

/-- The RSSI field's measured value; 0 to 127 are not measured. -/
def receiveRssi (w : Word) : Option Int :=
  if bits w 0 8 < 128 then none else some (signedByte (bits w 0 8))

/-- The station field. -/
def receiveStation (w : Word) : Option StationId := stationOfField (bits w 8 8)

/-- The sequence field. -/
def receiveSequence (w : Word) : Byte := BitVec.ofNat 8 (bits w 16 8)

/-- The kind field is MGMT; an absent kind is not (R185). -/
def receiveIsMgmt (w : Word) (m : Lanes) : Bool := lane m 3 && decide (bits w 24 2 = 1)

/-- The kind field is MARKER; an absent kind is not (R185). -/
def receiveIsMarker (w : Word) (m : Lanes) : Bool := lane m 3 && decide (bits w 24 2 = 2)

/-- The control word with its status field FILTERED (R185). -/
def filteredWord (w : Word) : Word := (w &&& ~~~(0x0C000000 : Word)) ||| 0x04000000

/-! ### Bus requests (R149) -/

/-- The request is a bus block: 1, 2, 4 or 8 beats (R149). -/
def isBlock (n : Nat) : Bool := decide (n = 1) || decide (n = 2) || decide (n = 4) || decide (n = 8)

/-- The first byte address of a block: a misaligned address is aligned down (R149). -/
def blockStart (a : Address) (n : Nat) : Nat := a.toNat / (4 * n) * (4 * n)

/-- The first byte address of a write. -/
def writeStart (w : UpWrite) : Nat := blockStart w.addr w.beats.length

/-- The mask in force for every beat: a longer write enables every lane (R149). -/
def writeMask (w : UpWrite) : Lanes := if w.beats.length = 1 then w.mask else 0xF

/-- A write beat is good: GOOD, and not marked RESPONSE (R150). -/
def beatGood (b : Beat) : Bool := b.good && !b.response

/-- The beats of a write as forwarded: one that carries RESPONSE loses GOOD and keeps LAST (R150). Its RESPONSE flag
goes downstream as it came. DESIGN CHOICE, log entry 41: unsafe. -/
def forwardedBeats (w : UpWrite) : List WriteBeat :=
  w.beats.map (fun b => ⟨{ b with good := beatGood b }, writeMask w⟩)

/-- One word of a write: its byte address, data, lanes, and whether its beat is good. -/
structure WrittenWord where
  addr : Nat
  data : Word
  mask : Lanes
  good : Bool
deriving DecidableEq, Repr

/-- The words of the beats of a write, from byte address `a` upward. -/
def wordsFrom (m : Lanes) : Nat → List Beat → List WrittenWord
  | _, [] => []
  | a, b :: bs => ⟨a, b.data, m, beatGood b⟩ :: wordsFrom m (a + 4) bs

/-- The words of a write in ascending address order. -/
def writtenWords (w : UpWrite) : List WrittenWord := wordsFrom (writeMask w) (writeStart w) w.beats

/-! ### Regions (R154, R155, R166) -/

/-- Where a block falls. -/
inductive Region where
  | plain
  /-- the policy area, at a byte offset -/
  | policy (off : Nat)
  /-- a ring of a link: slot and word of the block's first beat -/
  | staging (l : Link) (slot word : Nat)
  | receive (l : Link) (slot word : Nat)
  | egress (l : Link) (slot word : Nat)
  /-- the image area of an OPEN session, at a byte offset -/
  | image (off : Nat)
deriving DecidableEq, Repr

/-- Slot and word of an address in a ring of `size` slots at `base`. -/
def ringPlace (base size a : Nat) : Option (Nat × Nat) :=
  if base ≤ a ∧ a < base + 32 * size then some ((a - base) / 32, (a - base) / 4 % 8) else none

/-- The ring of link `l` that holds address `a`. -/
def ringRegion (c : LinkConfig) (l : Link) (a : Nat) : Option Region :=
  match ringPlace c.stagingBase c.stagingSize a with
  | some (i, k) => some (.staging l i k)
  | none =>
    match ringPlace c.egressBase c.egressSize a with
    | some (i, k) => some (.egress l i k)
    | none => (ringPlace c.receiveBase c.receiveSize a).map (fun p => .receive l p.1 p.2)

/-- The ring that holds address `a` in a region map. -/
def mapRegion (m : RegionMap) (a : Nat) : Option Region :=
  allLinks.findSome? (fun l => ringRegion (m.links.get l) l a)

/-- The image area of an OPEN session holds address `a` (R128). -/
def inImageArea (s : State) (a : Nat) : Bool :=
  decide (s.image.session = .opened) && decide (s.image.base ≤ a) && decide (a < s.image.base + 1024 * s.image.count)

/-- The region of a block that starts at byte address `a`, by the mode and map standing (R154). In TRANSPARENT only
the device control word is known. -/
def regionOf (s : State) (a : Nat) : Region :=
  if s.loader.mode = .transparent then
    if a = policyBase s then .policy 0 else .plain
  else if policyBase s ≤ a ∧ a < policyBase s + Config.policyBytes then .policy (a - policyBase s)
  else match s.loader.map.bind (fun m => mapRegion m a) with
    | some r => r
    | none => if inImageArea s a then .image (a - s.image.base) else .plain

/-- A word of the policy area, by byte offset, is a watched word (R155): the status words and areas, the producer
index, the event ring, the marker buffers and the words no table names are not. -/
def isWatched (off : Nat) : Bool :=
  decide (off / 4 = 0) || decide (off / 4 = 0x008 / 4) ||
  (decide (0x040 ≤ off) && decide (off < 0x13C)) ||
  decide (off / 4 = 0x140 / 4) ||
  (decide (0x180 ≤ off) && decide (off < 0x190)) ||
  (decide (0x1000 ≤ off) && decide (off < 0x1400)) ||
  (decide (0x2000 ≤ off) && decide (off < 0x4000) && !(decide (32 ≤ off % 64) && decide (off % 64 < 48))) ||
  (decide (0x4000 ≤ off) && decide (off < 0x4400)) ||
  (decide (0x8000 ≤ off) && decide (off < 0xC000))

/-- The station whose control word lies at a policy offset (11.2). -/
def controlWordOf (off : Nat) : Option StationId :=
  if 0x2000 ≤ off ∧ off < 0x4000 ∧ off % 64 / 4 = 15 then stationOfField ((off - 0x2000) / 64) else none

/-- The byte address of word `k` of a slot in a ring at `base`. -/
def slotWord (base slot k : Nat) : Nat := base + 32 * slot + 4 * k

/-- Words of the empty descriptor: word 7 has owner PART (R41, 11.1). -/
def emptyWord (k : Nat) : Word := if k = 7 then 0x40000000 else 0

/-- The words of the empty descriptor a read covers. -/
def emptyWords (first count : Nat) : List Word := (List.range count).map (fun k => emptyWord (first + k))

end Sys2Proof.Machine
end

