-- ==== Sys2Proof/Machine/Airtime.lean ====
section
/-! DEFINITION. Airtime arithmetic: overhead, effective rate, cost, credits, tokens, retry charges and station usage
(section 2). -/

namespace Sys2Proof.Machine

open Sys2Proof

/-- The overhead of a link as its last successful load formed it (R25). -/
def linkOverhead (s : State) (l : Link) : Nat := (s.link l).overhead.getD 0

/-- The default rate of a link as its last successful load took it (R26). -/
def linkRate (s : State) (l : Link) : Nat := (s.link l).defaultRate.getD Config.fallbackRate

/-- The overhead a load forms (R25). -/
def overheadOf (c : LinkConfig) : Nat := c.preamble + c.gap + c.ack

/-- The default rate a load takes: 0 is taken as 60 (R26). -/
def rateOf (c : LinkConfig) : Nat := if c.defaultRate = 0 then Config.fallbackRate else c.defaultRate

/-- O + ⌈80L / R⌉, saturating at 65535 (R29). -/
def frameCost (overhead rate length : Nat) : Nat := min 65535 (overhead + (80 * length + rate - 1) / rate)

/-- The cost of a DIRECT frame: the station's rate, or the staging link's default where that is 0 or there is no
station (R28). -/
def directCost (s : State) (l : Link) (st : Option StationId) (length : Nat) : Nat :=
  let own := (st.map (fun t => (s.station t).record.rate)).getD 0
  frameCost (linkOverhead s l) (if own = 0 then linkRate s l else own) length

/-- The cost of a FORWARDED frame (R28). -/
def forwardedCost (s : State) (length : Nat) : Nat :=
  frameCost (linkOverhead s .backhaul) (linkRate s .backhaul) length

/-- The cost of a marker (R28). -/
def markerCost (s : State) : Nat := forwardedCost s 64

/-! ### Credits (R32) -/

/-- The quantum addition. -/
def addQuantum (credit : Int) (q : Nat) : Int := min 65535 (credit + q)

/-- The retry charge on a credit. -/
def chargeCredit (credit : Int) (e : Nat) : Int := max (-65536) (credit - e)

/-- The forgiveness step. -/
def forgive (credit : Int) : Int := min credit 0

def setCredit (l : Link) (c : Cls) (v : Int) (s : State) : State :=
  s.setLink l { s.link l with credits := (s.link l).credits.put c v }

/-! ### Tokens (R33 to R35) -/

def setTokens (l : Link) (v : Int) (s : State) : State := s.setLink l { s.link l with tokens := v }

/-- A charge on tokens, saturating at −65535 (R35, R36). -/
def chargeTokens (t : Int) (c : Nat) : Int := max (-65535) (t - c)

/-- A link's refill: T becomes min(B, T + G) (R34). -/
def refillLink (l : Link) (s : State) : State :=
  setTokens l (min (gameBurst s l : Int) ((s.link l).tokens + gameRate s l)) s

/-- The refills of a millisecond event in ACTIVE mode (R34). -/
def refill (s : State) : State := if s.loader.mode = .active then forEach refillLink allLinks s else s

/-- An accepted write of a link's burst: T becomes min(T, B) (R33). -/
def clampTokens (l : Link) (s : State) : State := setTokens l (min (s.link l).tokens (gameBurst s l)) s

/-! ### Retry charge and usage (R36, R37) -/

/-- The extra charge E = min(65535, r × C). -/
def retryExtra (retries cost : Nat) : Nat := min 65535 (retries * cost)

/-- The retry charge of entry `i`, in flight on link `l`: on the class credit, and for GAME on the tokens too (R36). -/
def chargeRetries (l : Link) (i retries : Nat) (s : State) : State :=
  let e := s.entry i
  let x := retryExtra retries e.cost
  let s' := setCredit l e.cls (chargeCredit ((s.link l).credits.get e.cls) x) s
  if e.cls = .game then setTokens l (chargeTokens (s.link l).tokens x) s' else s'

/-- A station's usage rises, saturating at 4294967295 (R37). -/
def addUsage (st : StationId) (n : Nat) (s : State) : State :=
  s.setStation st { s.station st with usage := min 4294967295 ((s.station st).usage + n) }

/-- The usage rise of a handled completion: C + E for a DIRECT or FORWARDED entry with a station (R37). -/
def chargeUsage (i retries : Nat) (s : State) : State :=
  let e := s.entry i
  match e.station with
  | some st => if e.origin = .marker then s else addUsage st (e.cost + retryExtra retries e.cost) s
  | none => s

end Sys2Proof.Machine
end

