-- ==== Sys2Proof/Machine/Flags.lean ====
section
/-! DEFINITION. The status words, status areas, control words and event records the part writes: their codes and
layouts (section 11). -/

namespace Sys2Proof.Machine

open Sys2Proof

/-! ### Codes -/

/-- A status code of a staging slot (11.1). -/
def slotStatusCode : SlotStatus → Nat
  | .sent => 1 | .failed => 2 | .blocked => 3 | .notHere => 4 | .queueFull => 5 | .holdFull => 6
  | .malformed => 7 | .returned => 8 | .memoryError => 9

/-- A result code (11.2). -/
def resultCode : Result → Nat
  | .none => 0 | .accepted => 1 | .refusedState => 2 | .refusedInvalid => 3

/-- A handoff state code; NONE is 0 (11.2). -/
def handoffCode : Option HandoffState → Nat
  | none => 0
  | some .resident => 1 | some .departing => 2 | some .forwarding => 3 | some .releasing => 4
  | some .absent => 5 | some .arriving => 6

/-- An access state code; NONE is 0 (11.2). -/
def accessCode : Option AccessState → Nat
  | none => 0
  | some .openAccess => 1 | some .bonus => 2 | some .blocked => 3 | some .paused => 4

/-- A device mode code (11.3). -/
def modeCode : Mode → Nat
  | .transparent => 0 | .loading => 1 | .active => 2 | .stopping => 3

/-- A load failure reason code (11.3). -/
def reasonCode : LoadReason → Nat
  | .none => 0 | .ringSize => 1 | .imageSize => 2 | .ringAlign => 3 | .imageAlign => 4 | .startSlot => 5
  | .range => 6 | .overlap => 7 | .memory => 8

/-- A session state code (11.3). -/
def sessionCode : SessionState → Nat
  | .none => 0 | .opened => 1 | .closed => 2

/-- An origin code (11.1). -/
def originCode : Origin → Nat
  | .direct => 0 | .forwarded => 1 | .marker => 2

/-- A BLOCK_BAD cause code (11.4). -/
def causeCode : BadCause → Nat
  | .mismatch => 0 | .errorMark => 1 | .partialBeat => 2 | .order => 3

def bitOf (b : Bool) : Nat := if b then 1 else 0

/-- The reason mask as written: IMAGE, CLOCK, WINDOW, GAME, MOVING from bit 0 (11.3). -/
def reasonsCode (r : Reasons) : Nat :=
  bitOf r.image + 2 * bitOf r.clock + 4 * bitOf r.window + 8 * bitOf r.game + 16 * bitOf r.moving

/-- A word of a number's low-order 32 bits. -/
def word (n : Nat) : Word := BitVec.ofNat 32 n

/-- A word of a signed number's low-order 32 bits. -/
def wordOfInt (n : Int) : Word := BitVec.ofInt 32 n

/-- The low-order `len` bits of a number, at bit `lo`. -/
def put (n lo len : Nat) : Nat := n % 2 ^ len * 2 ^ lo

/-- The low-order `len` bits of a signed number, at bit `lo`. -/
def putInt (n : Int) (lo len : Nat) : Nat := (n % 2 ^ len).toNat * 2 ^ lo

/-! ### Status words -/

/-- The last-command field: the code of a known command, else a free value (Config.unknownCommandCode). -/
def lastCommandField (c : Byte) : Nat :=
  if c.toNat ≤ 2 then c.toNat else (Config.unknownCommandCode c).toNat

/-- The device status word (section 9.2, 11.3); the abandoned count saturates at 511. -/
def deviceStatusWord (s : State) : Word :=
  word (put (modeCode s.loader.mode) 0 2 + put (lastCommandField s.loader.lastCommand) 2 2 +
    put (resultCode s.loader.lastResult) 4 2 + put (reasonCode s.loader.failure) 6 4 +
    put s.loader.subject 10 13 + put (min s.loader.abandoned 511) 23 9)

/-- The update status word (R132, 11.3). 11.3 gives the last session result no codes: it is coded as a station's last
result. DEDUCED, log entry 48: unsafe. -/
def updateStatusWord (s : State) : Word :=
  word (put (sessionCode s.image.session) 0 2 + put (resultCode s.image.lastResult) 2 2 +
    put s.image.verified 4 13 + put (bitOf s.gate.isOpen) 17 1 + put (reasonsCode s.gate.reasons) 18 5)

/-- The four words of a station's status area (R73, 11.2). -/
def stationStatusWords (x : Station) : List Word :=
  [ word (put (resultCode x.lastResult) 0 8 + put (handoffCode x.handoff) 8 8 + put (accessCode x.access) 16 8),
    word (put x.bonus 0 16 + putInt (x.signal.getD 0) 16 16),
    word x.usage,
    0 ]

/-- The byte lane that holds owner and status: owner SOFTWARE, the status code, bits 30 and 31 zero (R18, R185). -/
def slotStatusWord (st : SlotStatus) : Word := word (put (slotStatusCode st) 26 4)

/-- The egress control word of an answer: owner MAC, origin, entry index, class and length (R51, 11.1). -/
def egressControlWord (s : State) (i : Nat) : Word :=
  let e := s.entry i
  word (put e.length 0 14 + put (clsCode e.cls) 14 2 + put i 16 11 + put (originCode e.origin) 27 2 + put 2 30 2)

/-! ### Events (10.1, 11.4) -/

/-- The 28 kinds of event with what each carries. -/
inductive Event where
  | malformed (l : Link) (slot : Nat)
  /-- MEMORY_ERROR of source BUS -/
  | memoryErrorBus (addr : Nat)
  /-- MEMORY_ERROR of source admission -/
  | memoryErrorAdmission (l : Link) (slot : Nat)
  /-- MEMORY_ERROR of source answer: staging link and slot, egress link and slot -/
  | memoryErrorAnswer (sl : Link) (ss : Nat) (el : Link) (es : Nat)
  | stagingOverwrite (l : Link) (slot wordOffset : Nat)
  | unknownStation (l : Link) (slot field : Nat)
  | poolStall (l : Link)
  | queueDrop (l : Link) (c : Cls) (slot : Nat)
  | holdDrop (l : Link) (slot : Nat)
  | linkLow (l : Link) (count : Nat)
  | egressOrder (l : Link) (slot cursor : Nat)
  | strayCompletion (l : Link) (slot : Nat)
  | accessChange (st : StationId) (old new : Option AccessState)
  | bonusSpent (st : StationId)
  | steerHint (st : StationId) (signal neighbour : Int) (l : Link)
  | handoffRefused (st : StationId) (r : Request) (h : Option HandoffState)
  | markerMissed (st : StationId) (seq : Byte)
  | staleMarker (st : StationId) (seen working : Byte)
  | markerLost (st : StationId) (seq : Byte)
  | handoffDone (st : StationId) (seq : Byte)
  | blockBad (block : Nat) (cause : BadCause)
  | fillEvicted (evicted taking context : Nat)
  | imageComplete (count : Nat)
  | loadDone (plc : BitVec 3)
  | stopped (byTimeout : Bool) (count : Nat)
  | handoffState (st : StationId) (old new : HandoffState) (seq : Byte) (count : Nat)
  | applyOpen (r : Reasons) (verified count : Nat) (minute : Option Nat)
  | applyShut (r : Reasons) (verified count : Nat) (minute : Option Nat)
  | loadFailed (r : LoadReason) (subject progress : Nat)
  | overflow (mask : BitVec 32) (count : Nat)
deriving DecidableEq, Repr

/-- The kind code of an event (R188). -/
def eventKind : Event → Nat
  | .malformed .. => 0
  | .memoryErrorBus .. => 1
  | .memoryErrorAdmission .. => 1
  | .memoryErrorAnswer .. => 1
  | .stagingOverwrite .. => 2
  | .unknownStation .. => 3
  | .poolStall .. => 4
  | .queueDrop .. => 5
  | .holdDrop .. => 6
  | .linkLow .. => 7
  | .egressOrder .. => 8
  | .strayCompletion .. => 9
  | .accessChange .. => 10
  | .bonusSpent .. => 11
  | .steerHint .. => 12
  | .handoffRefused .. => 13
  | .markerMissed .. => 14
  | .staleMarker .. => 15
  | .markerLost .. => 16
  | .handoffDone .. => 17
  | .blockBad .. => 18
  | .fillEvicted .. => 19
  | .imageComplete .. => 20
  | .loadDone .. => 21
  | .stopped .. => 22
  | .handoffState .. => 23
  | .applyOpen .. => 24
  | .applyShut .. => 25
  | .loadFailed .. => 26
  | .overflow .. => 27

/-- The record length of a kind in units: two for the last five kinds (10.1, R179). -/
def kindUnits (k : Nat) : Nat := if 23 ≤ k then 2 else 1

/-- The minute field of a gate event: 0xFFFFFFFF while the clock is unset (11.4). -/
def minuteWord (m : Option Nat) : Word :=
  match m with
  | some n => word n
  | none => 0xFFFFFFFF

/-- Bytes 2 and 3 of a record. Byte 3 of a MEMORY_ERROR is 0 for source BUS, which has no link, and its egress link is
0 for source admission, which has none. DESIGN CHOICE, log entry 44: unsafe. 11.4 gives the class of QUEUE_DROP no
codes: it is coded as the class hint. DEDUCED, log entry 48: unsafe. -/
def eventHead : Event → Nat × Nat
  | .malformed l _ => (linkNumber l, 0)
  | .memoryErrorBus _ => (0, 0)
  | .memoryErrorAdmission l _ => (1, put (linkNumber l) 4 4)
  | .memoryErrorAnswer sl _ el _ => (2, put (linkNumber sl) 4 4 + put (linkNumber el) 0 4)
  | .stagingOverwrite l _ k => (linkNumber l, k)
  | .unknownStation l _ f => (linkNumber l, f)
  | .poolStall l => (linkNumber l, 0)
  | .queueDrop l c _ => (linkNumber l, clsCode c)
  | .holdDrop l _ => (linkNumber l, 0)
  | .linkLow l _ => (linkNumber l, 0)
  | .egressOrder l _ c => (linkNumber l, c)
  | .strayCompletion l _ => (linkNumber l, 0)
  | .accessChange st old new => (st.val, put (accessCode old) 4 4 + put (accessCode new) 0 4)
  | .bonusSpent st => (st.val, 0)
  | .steerHint st _ _ l => (st.val, linkNumber l)
  | .handoffRefused st r h => (st.val, put (requestCode r) 4 4 + put (handoffCode h) 0 4)
  | .markerMissed st q => (st.val, q.toNat)
  | .staleMarker st seen _ => (st.val, seen.toNat)
  | .markerLost st q => (st.val, q.toNat)
  | .handoffDone st q => (st.val, q.toNat)
  | .blockBad _ c => (causeCode c, 0)
  | .fillEvicted _ _ c => (c, 0)
  | .imageComplete _ => (0, 0)
  | .loadDone p => (p.toNat, 0)
  | .stopped t _ => (bitOf t, 0)
  | .handoffState st old new _ _ =>
    (st.val, put (handoffCode (some old)) 4 4 + put (handoffCode (some new)) 0 4)
  | .applyOpen r _ _ _ => (1, reasonsCode r)
  | .applyShut r _ _ _ => (0, reasonsCode r)
  | .loadFailed r _ _ => (reasonCode r, 0)
  | .overflow _ _ => (0, 0)

/-- The words of a record from byte 4 on (11.4). The egress slot of a MEMORY_ERROR of source admission, which has none,
is 0. DESIGN CHOICE, log entry 44: unsafe. -/
def eventTail : Event → List Word
  | .malformed _ n => [word n]
  | .memoryErrorBus a => [word a]
  | .memoryErrorAdmission _ n => [word (put n 0 16)]
  | .memoryErrorAnswer _ ss _ es => [word (put ss 0 16 + put es 16 16)]
  | .stagingOverwrite _ n _ => [word n]
  | .unknownStation _ n _ => [word n]
  | .poolStall _ => [0]
  | .queueDrop _ _ n => [word n]
  | .holdDrop _ n => [word n]
  | .linkLow _ n => [word n]
  | .egressOrder _ n _ => [word n]
  | .strayCompletion _ n => [word n]
  | .accessChange .. => [0]
  | .bonusSpent _ => [0]
  | .steerHint _ sg n _ => [word (putInt sg 0 16 + putInt n 16 8)]
  | .handoffRefused .. => [0]
  | .markerMissed .. => [0]
  | .staleMarker _ _ w => [word w.toNat]
  | .markerLost .. => [0]
  | .handoffDone .. => [0]
  | .blockBad b _ => [word b]
  | .fillEvicted e t _ => [word (put e 0 16 + put t 16 16)]
  | .imageComplete n => [word n]
  | .loadDone _ => [0]
  | .stopped _ n => [word n]
  | .handoffState _ _ _ q n => [word (put q.toNat 0 8 + put n 8 12), 0, 0]
  | .applyOpen _ v n m => [word (put v 0 16 + put n 16 16), minuteWord m, 0]
  | .applyShut _ v n m => [word (put v 0 16 + put n 16 16), minuteWord m, 0]
  | .loadFailed _ sub prog => [word sub, word prog, 0]
  | .overflow mask n => [mask, word n, 0]

/-- The words of an event's record: the kind in bytes 0 and 1, then its fields (R188). -/
def eventWords (e : Event) : List Word :=
  word (put (eventKind e) 0 16 + put (eventHead e).1 16 8 + put (eventHead e).2 24 8) :: eventTail e

end Sys2Proof.Machine
end

