-- ==== Sys2Proof/Machine/Events.lean ====
section
/-! DEFINITION. The event writer: routing, writing and missing of records, consumer writes, and the event line
(section 10). -/

namespace Sys2Proof.Machine

open Sys2Proof

/-- The routing of a kind: the four forced kinds are NOW; before the first successful load every kind has its
default; else the routing field (R179). -/
def kindRouting (s : State) (k : Nat) : Routing :=
  if k = 0 ∨ k = 1 ∨ k = 26 ∨ k = 27 then .now
  else if s.loader.loaded then routingField s k
  else if k = 5 ∨ k = 6 then .off
  else .line

/-- The unconsumed units, (P − C) modulo 1024 (R178). -/
def unconsumed (v : EventWriter) : Nat := (v.producer + Config.indexSpan - v.consumer) % Config.indexSpan

/-- The free units of the ring (R178). -/
def freeUnits (v : EventWriter) : Nat := Config.ringUnits - unconsumed v

/-- The number of LINE records in the record list (R182). -/
def lineRecords (v : EventWriter) : Nat := (v.records.filter (fun r => r.routing = .line)).length

/-- Drive the event line (R182, R183). -/
def setLine (b : Bool) (s : State) : State := { s with events := { s.events with line := b } }

/-- The byte address of the unit of an index (R178). -/
def unitAddress (s : State) (i : Nat) : Nat := policyBase s + 0x5000 + 8 * (i % Config.ringUnits)

/-- Issue the writes of a record's words from unit P: one write, or two where a two-unit record begins at unit 511
(R180). -/
def issueRecord (ws : List Word) (s : State) : State :=
  if ws.length ≤ 2 ∨ s.events.producer % Config.ringUnits ≠ Config.ringUnits - 1 then
    issueWords (unitAddress s s.events.producer) ws s
  else
    issueWords (unitAddress s (s.events.producer + 1)) (ws.drop 2)
      (issueWords (unitAddress s s.events.producer) (ws.take 2) s)

/-- P advances and the record joins the tail of the record list (R180). -/
def appendRecord (units : Nat) (r : Routing) (s : State) : State :=
  { s with events := { s.events with
      producer := (s.events.producer + units) % Config.indexSpan
      records := s.events.records ++ [⟨s.events.producer, units, r, s.clock.now⟩] } }

/-- The line test at the writing of a record (R182). -/
def testLine (r : Routing) (s : State) : State :=
  if r = .now ∨ (r = .line ∧ coalescingThreshold s ≤ lineRecords s.events) then setLine true s else s

/-- Write a record (R180). -/
def writeRecord (e : Event) (r : Routing) (s : State) : State :=
  issueProducer (testLine r (appendRecord (kindUnits (eventKind e)) r (issueRecord (eventWords e) s)))

/-- Miss a record: its kind joins the mask and the count rises, saturating at 65535 (R181). -/
def missRecord (k : Nat) (s : State) : State :=
  { s with events := { s.events with
      missed := s.events.missed ||| BitVec.ofNat 32 (2 ^ k)
      missedCount := min (s.events.missedCount + 1) 65535 } }

/-- An owner raises an event (R179 to R181). -/
def raise (e : Event) (s : State) : State :=
  if kindRouting s (eventKind e) = .off then s
  else if s.events.missed = 0 ∧ kindUnits (eventKind e) ≤ freeUnits s.events then
    writeRecord e (kindRouting s (eventKind e)) s
  else missRecord (eventKind e) s

/-! ### Consumer writes (R178, R181, R183) -/

/-- How far an index lies before another, modulo 1024. -/
def indexSpanTo (c v : Nat) : Nat := (v + Config.indexSpan - c) % Config.indexSpan

/-- The value is taken as a consumer write: not above 1023, within the forward span, and not the second unit of a
two-unit record of the list (R178). -/
def consumerAccepts (w : EventWriter) (v : Nat) : Bool :=
  decide (v < Config.indexSpan) && decide (indexSpanTo w.consumer v ≤ unconsumed w) &&
    !(w.records.any (fun r => decide (r.length = 2) && decide ((r.index + 1) % Config.indexSpan = v)))

/-- C becomes the value, and every record whose units all lie before it leaves the list (R178). -/
def consume (v : Nat) (s : State) : State :=
  { s with events := { s.events with
      consumer := v
      records := s.events.records.filter (fun r =>
        indexSpanTo s.events.consumer v < indexSpanTo s.events.consumer r.index + r.length) } }

/-- Empty the missed mask and count (R181). -/
def clearMissed (s : State) : State := { s with events := { s.events with missed := 0, missedCount := 0 } }

/-- Serve the missed mask: one OVERFLOW record where at least 2 units are free (R181). -/
def serveMissed (s : State) : State :=
  if s.events.missed ≠ 0 ∧ 2 ≤ freeUnits s.events then
    clearMissed (writeRecord (.overflow s.events.missed s.events.missedCount) .now s)
  else s

/-- The line falls where C equals P (R183). -/
def testDeassert (s : State) : State :=
  if s.events.consumer = s.events.producer then setLine false s else s

/-- A value of the consumer index reaches the event writer (R178). -/
def consumerIndex (v : Nat) (s : State) : State :=
  if consumerAccepts s.events v then testDeassert (serveMissed (consume v s)) else s

/-! ### The event line's other tests (R182) -/

/-- The test at a write of the threshold. -/
def testThreshold (s : State) : State :=
  if coalescingThreshold s ≤ lineRecords s.events then setLine true s else s

/-- The oldest LINE record has reached the coalescing timeout. -/
def coalescingDue (s : State) : Bool :=
  decide (coalescingTimeout s ≠ 0) &&
    match s.events.records.find? (fun r => r.routing = .line) with
    | some r => decide (coalescingTimeout s ≤ msAge s r.written)
    | none => false

/-- The test at a millisecond event, in every mode: R182 limits it to none, and in TRANSPARENT R183's "the line keeps
its state" is read of what software writes. DEDUCED, log entry 47: unsafe. -/
def testCoalescing (s : State) : State := if coalescingDue s then setLine true s else s

end Sys2Proof.Machine
end

