-- ==== Sys2Proof/Machine/Gate.lean ====
section
/-! DEFINITION. The apply gate: its five conditions, its evaluation and its events (section 7.7). -/

namespace Sys2Proof.Machine

open Sys2Proof

/-- The image is complete: the session is OPEN and its verified count equals its session count (R142). -/
def imageComplete (s : State) : Bool :=
  decide (s.image.session = .opened) && decide (s.image.verified = s.image.count)

/-- The maintenance profile index field (11.3). -/
def maintenanceIndex (s : State) : Nat := bits (shadowWord s 0x18C) 0 8

/-- The WINDOW condition: a named profile gives ALLOW; 16 to 31 are unrestricted; 32 to 255 give BLOCK (R146,
R187). -/
def maintenanceAllows (s : State) : Bool :=
  if maintenanceIndex s < 16 then profileAllows s (maintenanceIndex s) else decide (maintenanceIndex s < 32)

/-- The reason mask: a flag for each condition that fails (R143). -/
def gateReasons (s : State) : Reasons :=
  { image := !imageComplete s
    clock := !s.clock.isSet
    window := !maintenanceAllows s
    game := s.game.active
    moving := decide (s.gate.moving ≠ 0) }

/-- No flag is set. -/
def Reasons.clear (r : Reasons) : Bool := !r.image && !r.clock && !r.window && !r.game && !r.moving

/-- The minute a gate event carries; none while the clock is unset (R145). -/
def gateMinute (s : State) : Option Nat := if s.clock.isSet then some s.clock.minute else none

/-- Record the outcome of an evaluation (R143). -/
def recordGate (r : Reasons) (s : State) : State :=
  { s with gate := { s.gate with isOpen := r.clear, reasons := r } }

/-- The event of a gate that changes (R145). -/
def gateEvent (r : Reasons) (s : State) : Event :=
  if r.clear then .applyOpen r s.image.verified s.image.count (gateMinute s)
  else .applyShut r s.image.verified s.image.count (gateMinute s)

/-- One evaluation of the gate with mask `r`: a change of state or mask writes the update status word, a change of
state raises its event (R145), after the write is issued. DESIGN CHOICE, log entry 18, for that order: unsafe. -/
def judgeGate (r : Reasons) (s : State) : State :=
  if r.clear ≠ s.gate.isOpen then
    raise (gateEvent r s) (issueUpdateStatus 0 (recordGate r s))
  else if r ≠ s.gate.reasons then issueUpdateStatus 0 (recordGate r s)
  else s

/-- Evaluate the gate on the conditions as they stand (R143). -/
def evaluateGate (s : State) : State := judgeGate (gateReasons s) s

/-- A condition may have changed: in ACTIVE mode the gate is evaluated (R144). -/
def noticeGate (s : State) : State := if s.loader.mode = .active then evaluateGate s else s

end Sys2Proof.Machine
end

