-- ==== Sys2Proof/Machine/Pool.lean ====
section
/-! DEFINITION. The entry pool and the lists through it: joining and leaving class queues and hold lists, the
low-water test, staging status writes, freeing, forward counts and the start of marker emission (sections 1.1, 1.2,
1.5, 1.7, 6.5, 6.6). -/

namespace Sys2Proof.Machine

open Sys2Proof

/-! ### Low-water mark (R22) -/

/-- The comparison made when the count of queued direct entries of a link has changed. -/
def testLowWater (l : Link) (s : State) : State :=
  let n := (s.link l).directQueued
  let mark := lowWaterMark s l
  if s.loader.mode ≠ .active then s
  else if mark ≠ 0 ∧ mark ≤ n then s.setLink l { s.link l with lowArmed := true }
  else if (s.link l).lowArmed ∧ n < mark then
    raise (.linkLow l n) (s.setLink l { s.link l with lowArmed := false })
  else s

/-- The count of queued direct entries of a link becomes `n`. -/
def setDirectQueued (l : Link) (n : Nat) (s : State) : State :=
  testLowWater l (s.setLink l { s.link l with directQueued := n })

/-- Entry `i` has joined a class queue of link `l`. -/
def countJoin (l : Link) (i : Nat) (s : State) : State :=
  if (s.entry i).origin = .direct then setDirectQueued l ((s.link l).directQueued + 1) s else s

/-- Entry `i` has left a class queue of link `l`. -/
def countLeave (l : Link) (i : Nat) (s : State) : State :=
  if (s.entry i).origin = .direct then setDirectQueued l ((s.link l).directQueued - 1) s else s

/-! ### Class queues (R3) -/

/-- Entry `i` becomes QUEUED. -/
def markQueued (i : Nat) (s : State) : State :=
  s.setEntry i { s.entry i with state := .queued, egressSlot := none }

/-- Entry `i` joins a class queue at the tail. -/
def joinQueue (l : Link) (c : Cls) (i : Nat) (s : State) : State :=
  countJoin l i ((markQueued i s).setQueue l c ((markQueued i s).queue l c ++ [i]))

/-- The queue with `i` immediately after `j`, or at the front where `j` is none (R3). -/
def insertAfter (i : Nat) : Option Nat → List Nat → List Nat
  | none, q => i :: q
  | some _, [] => [i]
  | some j, k :: q => if k = j then k :: i :: q else k :: insertAfter i (some j) q

/-- The entry after which a RETURN drain's insertion point stands; none at the front (R114). -/
def pointOf (s : State) (st : StationId) (l : Link) (c : Cls) : Option Nat :=
  ((s.link l).points.find? (fun p => p.1 = st && p.2.1 = c)).map (fun p => p.2.2)

/-- The insertion point follows the entry just placed (R114). -/
def movePoint (st : StationId) (l : Link) (c : Cls) (i : Nat) (s : State) : State :=
  s.setLink l { s.link l with
    points := (st, c, i) :: (s.link l).points.filter (fun p => !(p.1 = st && p.2.1 = c)) }

/-- Entry `i` joins a class queue at the insertion point of a station's RETURN drain (R114). -/
def joinAtPoint (st : StationId) (l : Link) (c : Cls) (i : Nat) (s : State) : State :=
  countJoin l i (movePoint st l c i
    ((markQueued i s).setQueue l c (insertAfter i (pointOf s st l c) (s.queue l c))))

/-- The insertion points of a station's drain are at the fronts again (R114). -/
def clearPointsOn (st : StationId) (l : Link) (s : State) : State :=
  s.setLink l { s.link l with points := (s.link l).points.filter (fun p => p.1 ≠ st) }

def clearPoints (st : StationId) (s : State) : State := forEach (clearPointsOn st) allLinks s

/-- Entry `i` leaves a class queue; a point that stood after it returns to the front (R3, R114). LINK_LOW (R22) is
raised here, before whatever else the act writes or raises for the entry: no rule orders them.
DESIGN CHOICE, log entry 18: unsafe. -/
def leaveQueue (l : Link) (c : Cls) (i : Nat) (s : State) : State :=
  countLeave l i (s.setLink l { s.link l with
    queues := (s.link l).queues.put c ((s.queue l c).filter (fun j => j ≠ i))
    points := (s.link l).points.filter (fun p => !(p.2.1 = c && p.2.2 = i)) })

/-! ### Hold lists (R5) -/

/-- The hold list of a station, or the hold budget, is at its limit (R5). -/
def holdFull (s : State) (st : StationId) : Bool :=
  decide (Config.holdLimit ≤ (s.station st).holdList.length) || decide (Config.holdBudget ≤ holdCount s)

def setHoldList (st : StationId) (q : List Nat) (s : State) : State :=
  s.setStation st { s.station st with holdList := q }

/-- Entry `i` becomes HELD. -/
def markHeld (i : Nat) (s : State) : State := s.setEntry i { s.entry i with state := .held, egressSlot := none }

/-- Entry `i` joins a hold list at the tail (R5). -/
def holdTail (st : StationId) (i : Nat) (s : State) : State :=
  setHoldList st ((s.station st).holdList ++ [i]) (markHeld i s)

/-- The list with `i` right behind its last older entry: after every older entry (R5), and before every newer one
where a place meets both (R44, R103), as in a list in stamp order. Where a held entry's age has wrapped (R7) a newer
entry may stand before an older one, and then before `i` too. DESIGN CHOICE, log entry 38: unsafe. -/
def insertByStamp (s : State) (i : Nat) : List Nat → List Nat
  | [] => [i]
  | j :: js => if (j :: js).any (fun k => olderEntry s k i) then j :: insertByStamp s i js else i :: j :: js

/-- Entry `i` joins a hold list at the position its stamp gives (R5, R44, R103). -/
def holdByStamp (st : StationId) (i : Nat) (s : State) : State :=
  setHoldList st (insertByStamp s i (s.station st).holdList) (markHeld i s)

/-- Entry `i` leaves a hold list. -/
def leaveHold (st : StationId) (i : Nat) (s : State) : State :=
  setHoldList st ((s.station st).holdList.filter (fun j => j ≠ i)) s

/-! ### Staging status writes (R18) -/

/-- Write a status into a staging slot's control word: one single-beat write of the lane that holds owner and status
(R18, R185). -/
def writeSlotStatus (l : Link) (slot : Nat) (st : SlotStatus) (s : State) : State :=
  issueLanes (slotWord (ringsOf s l).stagingBase slot 7) 0x8 (slotStatusWord st) s

/-! ### Marker emission (R119, R120) -/

/-- A buffer no station holds, the lowest-numbered (R119). -/
def freeBuffer (s : State) : Option Nat :=
  (List.range Config.markerBuffers).find? (fun b => !s.handoff.busyBuffers.contains b)

/-- The byte address of a marker buffer (R52). -/
def bufferAddress (s : State) (b : Nat) : Nat := policyBase s + 0x6000 + 128 * b

/-- The words of a fill: the station address, the sequence in byte 6, then zeros (R120). -/
def markerWords (a : BitVec 48) (q : Byte) : List Word :=
  [word (a.toNat % 2 ^ 32), word (a.toNat / 2 ^ 32 + 2 ^ 16 * q.toNat), 0, 0, 0, 0, 0, 0]

/-- Begin the fill of a buffer for a station (R120). -/
def beginFill (st : StationId) (b : Nat) (s : State) : State :=
  let x := s.station st
  issue (.fill st (bufferAddress s b) (ownBeats (markerWords x.record.address x.sequence)))
    { s.setStation st { x with markerPhase := .filling, markerBuffer := some b } with
      handoff := { s.handoff with busyBuffers := insertSlot b s.handoff.busyBuffers } }

/-- A station begins to wait for a buffer or for an entry, at the tail of the pending-marker list. -/
def waitMarker (st : StationId) (p : MarkerPhase) (s : State) : State :=
  { s.setStation st { s.station st with markerPhase := p } with
    handoff := { s.handoff with pendingMarkers := s.handoff.pendingMarkers ++ [st] } }

/-- The station's marker emission may begin (R119). -/
def emissionDue (s : State) (st : StationId) : Bool :=
  decide (s.loader.mode = .active) && s.inHandoff st .releasing && decide ((s.station st).forwardCount = 0) &&
    decide ((s.station st).markerPhase = .none)

/-- Test for marker emission, and begin it (R118, R119). -/
def testEmission (st : StationId) (s : State) : State :=
  if emissionDue s st then
    match freeBuffer s with
    | some b => beginFill st b (s.setStation st { s.station st with markerSends := 0 })
    | none => waitMarker st .waitBuffer (s.setStation st { s.station st with markerSends := 0 })
  else s

/-! ### Freeing (R2, R20, R118) -/

/-- A link is stalled. -/
def anyStalled (s : State) : Bool := allLinks.any (fun l => (s.link l).stall.isSome)

/-- The first station of the pending-marker list in a phase. -/
def firstWaiting (s : State) (p : MarkerPhase) : Option StationId :=
  s.handoff.pendingMarkers.find? (fun st => (s.station st).markerPhase = p)

/-- Someone waits for an entry: a stalled link, or a station in WAIT_ENTRY (R20). -/
def entryAwaited (s : State) : Bool := anyStalled s || (firstWaiting s .waitEntry).isSome

/-- A release event: it is outstanding where someone waits, else the entry stays at the tail (R20). -/
def noteRelease (s : State) : State :=
  if entryAwaited s then { s with admission := { s.admission with releases := s.admission.releases + 1 } } else s

/-- The free of a FORWARDED entry lowers the station's carried count where that is above 0 and the entry's stamp is
older than the validation stamp, else its forward count, and a fall of the forward count tests for emission
(R118). Where the forward count stands at 0, which only an invalid station's cleared stamp brings about (R99), the
carried count is lowered. DESIGN CHOICE, log entry 22: unsafe. A fill it begins comes after the entry's status write and
event. DESIGN CHOICE, log entry 18: unsafe. -/
def lowerForward (e : Entry) (s : State) : State :=
  match e.station with
  | none => s
  | some st =>
    let x := s.station st
    if 0 < x.carriedCount ∧ (x.forwardCount = 0 ∨
        stampAge s.admission.stampCounter x.validationStamp < stampAge s.admission.stampCounter e.stamp) then
      s.setStation st { x with carriedCount := x.carriedCount - 1 }
    else testEmission st (s.setStation st { x with forwardCount := x.forwardCount - 1 })

/-- Free an entry that is on no list: the forward count falls for a FORWARDED entry, the entry joins the tail of the
free set, and its release is one event of the pool (R2, R18, R20). -/
def freeEntry (i : Nat) (s : State) : State :=
  let s1 := if (s.entry i).origin = .forwarded then lowerForward (s.entry i) s else s
  noteRelease { s1.setEntry i .unused with
    admission := { s1.admission with freeSet := s1.admission.freeSet ++ [i] } }

/-- Write a status into an entry's staging slot; a marker has none (R18). -/
def writeEntryStatus (i : Nat) (st : SlotStatus) (s : State) : State :=
  match (s.entry i).staging with
  | some (l, slot) => writeSlotStatus l slot st s
  | none => s

/-- Nullify an entry that is on no list: its status write, then its freeing (R18). -/
def nullifyEntry (i : Nat) (st : SlotStatus) (s : State) : State := freeEntry i (writeEntryStatus i st s)

/-- Raise HOLD_DROP for an entry, with its staging link and slot (R125). -/
def raiseHoldDrop (i : Nat) (s : State) : State :=
  match (s.entry i).staging with
  | some (l, slot) => raise (.holdDrop l slot) s
  | none => s

/-- Nullify entry `i` HOLD_FULL and free it, raising HOLD_DROP (R44, R105), which gets its place before the status write.
DESIGN CHOICE, log entry 18: unsafe. -/
def dropHeld (i : Nat) (s : State) : State := nullifyEntry i .holdFull (raiseHoldDrop i s)

/-! ### Taking an entry (R2, R7) -/

/-- The head of the free set. -/
def freeHead (s : State) : Option Nat := s.admission.freeSet.head?

/-- Take the head of the free set and fill it with `e`, which gets the stamp counter's value; the counter advances
(R2, R7). -/
def takeEntry (i : Nat) (e : Entry) (s : State) : State :=
  { s.setEntry i { e with stamp := s.admission.stampCounter } with
    admission := { s.admission with
      freeSet := s.admission.freeSet.tail
      stampCounter := s.admission.stampCounter + 1 } }

/-- A station's queued entries that satisfy `p`, in queue order: links 0 to 3, GAME to UPDATE, head to tail (R109). -/
def queuedWhere (s : State) (p : Entry → Bool) : List (Link × Cls × Nat) :=
  allLinks.flatMap (fun l => allClasses.flatMap (fun c =>
    ((s.queue l c).filter (fun i => p (s.entry i))).map (fun i => (l, c, i))))

/-- Take a queued entry off its queue and nullify it. -/
def nullifyQueued (st : SlotStatus) (p : Link × Cls × Nat) (s : State) : State :=
  nullifyEntry p.2.2 st (leaveQueue p.1 p.2.1 p.2.2 s)

end Sys2Proof.Machine
end

