-- ==== Sys2Proof/Machine/Handoff.lean ====
section
/-! DEFINITION. The handoff controller: state changes, requests, sweeps, drains, timer expiries, marker fills and
marker detection (section 6). -/

namespace Sys2Proof.Machine

open Sys2Proof

/-! ### State changes (R101) -/

/-- The four moving states the apply gate counts (R143). -/
def isMoving : HandoffState → Bool
  | .departing => true | .forwarding => true | .releasing => true | .arriving => true
  | .resident => false | .absent => false

/-- The handoff state of a valid station; RESIDENT stands in where there is none. DESIGN CHOICE, log entry 36: safe. -/
def handoffOf (s : State) (st : StationId) : HandoffState := (s.station st).handoff.getD .resident

/-- The gate's count of moving stations after a change (R143). -/
def movingAfter (old new : HandoffState) (n : Nat) : Nat :=
  n - (if isMoving old then 1 else 0) + (if isMoving new then 1 else 0)

/-- The station enters a handoff state: the gate's count follows, and a status write-back is issued (R101). -/
def enterState (st : StationId) (h : HandoffState) (s : State) : State :=
  issueStationStatus st 0
    { s.setStation st { s.station st with handoff := some h } with
      gate := { s.gate with moving := movingAfter (handoffOf s st) h s.gate.moving } }

/-- Raise HANDOFF_STATE for a change, with the working sequence as it stands (R101). -/
def raiseChange (st : StationId) (old : HandoffState) (count : Nat) (s : State) : State :=
  raise (.handoffState st old (handoffOf s st) (s.station st).sequence count) s

/-- A change with no sweep or drain: HANDOFF_STATE at the change (R101). DESIGN CHOICE, log entry 18: unsafe. -/
def changeState (st : StationId) (h : HandoffState) (count : Nat) (s : State) : State :=
  noticeGate (raiseChange st (handoffOf s st) count (enterState st h s))

/-- A change that begins a sweep or drain: HANDOFF_STATE waits for its end (R101). A RETURN drain's insertion points
start at the fronts (R114). The write-back comes before the gate's acts. DESIGN CHOICE, log entry 18: unsafe. -/
def changeWith (st : StationId) (h : HandoffState) (op : Operation) (s : State) : State :=
  let s1 := enterState st h s
  noticeGate (clearPoints st (s1.setStation st
    { s1.station st with operation := op, movedFrom := handoffOf s st, moved := 0 }))

/-- The operation of a station ends: HANDOFF_STATE with the entries it took (R104, R106). -/
def endOperation (st : StationId) (s : State) : State :=
  let x := s.station st
  raiseChange st x.movedFrom x.moved (s.setStation st { x with operation := .idle })

/-- Start the station's timer (R116). -/
def startTimer (st : StationId) (k : TimerKind) (n : Nat) (s : State) : State :=
  s.setStation st { s.station st with timer := some (k, expiryAfter s n) }

def stopTimerOf (st : StationId) (s : State) : State := s.setStation st { s.station st with timer := none }

def setEarly (st : StationId) (m : Option Byte) (s : State) : State :=
  s.setStation st { s.station st with earlyMarker := m }

/-- The working sequence becomes the handoff sequence of the committed record (R102, R112). -/
def takeSequence (st : StationId) (s : State) : State :=
  s.setStation st { s.station st with sequence := (s.station st).record.sequence }

/-! ### Requests (R100) -/

/-- DEPART from RESIDENT (R102). -/
def departStation (st : StationId) (s : State) : State :=
  changeWith st .departing .sweep (setEarly st none (takeSequence st s))

/-- EVICT from RESIDENT: every queued DIRECT entry is nullified NOT_HERE (R109), before the write-back and
HANDOFF_STATE of the change. DESIGN CHOICE, log entry 18, for that order: unsafe. -/
def evictResident (st : StationId) (s : State) : State :=
  let q := queuedWhere s (fun e => e.station = some st && e.origin = .direct)
  changeState st .absent q.length (forEach (nullifyQueued .notHere) q s)

/-- RELEASE, and the forward timer's expiry (R111): RELEASING, and emission at once where the forward count is 0. The
marker fill is issued after the write-back, HANDOFF_STATE and gate acts of the change. DESIGN CHOICE, log entry 18:
unsafe. -/
def releaseStation (st : StationId) (s : State) : State :=
  testEmission st (changeState st .releasing 0 (stopTimerOf st s))

/-- ARRIVE from ABSENT (R112). -/
def arriveStation (st : StationId) (s : State) : State :=
  let s1 := takeSequence st s
  if (s1.station st).earlyMarker = some (s1.station st).sequence then
    changeState st .resident 0 (setEarly st none s1)
  else startTimer st .arrival (arrivalInterval s) (changeState st .arriving 0 (setEarly st none s1))

/-- The effect of a request in a handoff state; none where the request is refused (R100). -/
def requestEffect (h : HandoffState) (r : Request) (st : StationId) : Option (State → State) :=
  match h, r with
  | .resident, .depart => some (departStation st)
  | .resident, .evict => some (evictResident st)
  | .departing, .evict => some (fun s => changeWith st .absent .nullifyDrain (stopTimerOf st s))
  | .departing, .forward => some (fun s => changeWith st .forwarding .forwardDrain (stopTimerOf st s))
  | .departing, .abort => some (fun s => changeWith st .resident .returnDrain (stopTimerOf st s))
  | .forwarding, .abort => some (fun s => changeState st .resident 0 (stopTimerOf st s))
  | .forwarding, .release => some (releaseStation st)
  | .absent, .arrive => some (arriveStation st)
  | .absent, .adopt => some (changeState st .resident 0)
  | .arriving, .abort => some (fun s => changeWith st .absent .nullifyDrain (stopTimerOf st s))
  | .arriving, .adopt => some (fun s => changeWith st .resident .arrivalDrain (stopTimerOf st s))
  | _, _ => none

/-- The last result of a station. -/
def setResult (st : StationId) (r : Result) (s : State) : State :=
  s.setStation st { s.station st with lastResult := r }

/-- The controller judges a request of a valid station (R69, R100): its effect with result ACCEPTED, or REFUSED_STATE
with HANDOFF_REFUSED. -/
def judgeRequest (st : StationId) (r : Request) (s : State) : State :=
  match requestEffect (handoffOf s st) r st with
  | some f => setResult st .accepted (f s)
  | none => setResult st .refusedState (raise (.handoffRefused st r (s.station st).handoff) s)

/-! ### Sweep steps (R103 to R105) -/

/-- The oldest of some queued entries, by stamp (R7, R103). -/
def oldestOf (s : State) : List (Link × Cls × Nat) → Option (Link × Cls × Nat)
  | [] => none
  | p :: ps =>
    match oldestOf s ps with
    | none => some p
    | some q => if olderEntry s q.2.2 p.2.2 then some q else some p

/-- The entry the next sweep step takes: the station's oldest QUEUED DIRECT entry on links 0 to 2 (R103). -/
def sweepCandidate (s : State) (st : StationId) : Option (Link × Cls × Nat) :=
  oldestOf s ((queuedWhere s (fun e => e.station = some st && e.origin = .direct)).filter
    (fun p => p.1 ≠ .backhaul))

/-- The held entry with the newest stamp: the last of the list in stamp order, by R7's order. -/
def newestHeld (s : State) : List Nat → Option Nat
  | [] => none
  | i :: is =>
    match newestHeld s is with
    | none => some i
    | some j => if olderEntry s i j then some j else some i

/-- The operation has taken one more entry. -/
def countMoved (st : StationId) (s : State) : State :=
  s.setStation st { s.station st with moved := (s.station st).moved + 1 }

/-- A swept entry that finds the limits reached (R105): the newest of the station's candidates is dropped. A held entry
that the sweep displaces and so nullifies is part of its count (R104), as the swept one is. It is counted again where
this sweep had taken it, which needs an age that has wrapped (R7). DESIGN CHOICE, log entry 40: unsafe. -/
def sweepOverflow (st : StationId) (i : Nat) (s : State) : State :=
  match newestHeld s (s.station st).holdList with
  | some j =>
    if olderEntry s i j then holdByStamp st i (dropHeld j (leaveHold st j (countMoved st s))) else dropHeld i s
  | none => dropHeld i s

/-- One sweep step (R103); a step that finds no candidate ends the sweep and starts the hold timer (R104). The count
rises by one for the entry taken, and once more for a held one it displaces (R104, R105). -/
def sweepOnce (st : StationId) (s : State) : State :=
  match sweepCandidate s st with
  | none => endOperation st (startTimer st .hold (holdInterval s) s)
  | some (l, c, i) =>
    let s1 := countMoved st (leaveQueue l c i s)
    if holdFull s1 st then sweepOverflow st i s1 else holdByStamp st i s1

/-- A sweep step of a station whose operation is SWEEP; else nothing is under way and nothing changes. -/
def takeSweepStep (st : StationId) (s : State) : State :=
  if s.loader.mode = .active ∧ (s.station st).operation = .sweep then sweepOnce st s else s

/-! ### Drain steps (R106, R107, R114, R115) -/

/-- The entry becomes FORWARDED, its cost recomputed, and the station's forward count rises (R107, R118). -/
def becomeForwarded (st : StationId) (i : Nat) (s : State) : State :=
  let s1 := s.setEntry i { s.entry i with origin := .forwarded, cost := forwardedCost s (s.entry i).length }
  s1.setStation st { s1.station st with forwardCount := (s1.station st).forwardCount + 1 }

/-- The staging link of an entry; a marker is never held. -/
def stagingLink (s : State) (i : Nat) : Link := ((s.entry i).staging.map Prod.fst).getD .wired

/-- Place the entry a drain step has taken off the hold list (R106). -/
def placeDrained (op : Operation) (st : StationId) (i : Nat) (s : State) : State :=
  let c := (s.entry i).cls
  match op with
  | .forwardDrain => joinQueue .backhaul c i (becomeForwarded st i s)
  | .returnDrain => joinAtPoint st (stagingLink s i) c i s
  | .arrivalDrain => joinQueue (stagingLink s i) c i s
  | .nullifyDrain => nullifyEntry i .notHere s
  | .sweep => s
  | .idle => s

/-- A drain of the station is in progress. -/
def draining (x : Station) : Bool :=
  match x.operation with
  | .forwardDrain => true | .returnDrain => true | .arrivalDrain => true | .nullifyDrain => true
  | .idle => false | .sweep => false

/-- The end of a drain: a FORWARD drain starts the forward timer (R106, R107). -/
def endDrain (st : StationId) (s : State) : State :=
  let s1 := if (s.station st).operation = .forwardDrain then startTimer st .forward (forwardInterval s) s else s
  endOperation st (clearPoints st s1)

/-- One drain step (R106). -/
def drainOnce (st : StationId) (s : State) : State :=
  match (s.station st).holdList with
  | [] => endDrain st s
  | i :: _ => placeDrained (s.station st).operation st i (countMoved st (leaveHold st i s))

/-- A drain step of a station whose drain is in progress; else nothing is under way and nothing changes. -/
def takeDrainStep (st : StationId) (s : State) : State :=
  if s.loader.mode = .active ∧ draining (s.station st) then drainOnce st s else s

/-! ### Timer expiries (R110, R111, R113, R117) -/

/-- The station's timer is of kind `k` and expires at this millisecond (R82). -/
def timerDue (s : State) (st : StationId) (k : TimerKind) : Bool :=
  decide ((s.station st).timer = some (k, s.clock.now))

/-- Hold timer expiry: taken as ABORT, a RETURN drain to RESIDENT (R110). -/
def expireHold (st : StationId) (s : State) : State :=
  if timerDue s st .hold then changeWith st .resident .returnDrain (stopTimerOf st s) else s

/-- Forward timer expiry: taken as RELEASE (R111). -/
def expireForward (st : StationId) (s : State) : State :=
  if timerDue s st .forward then releaseStation st s else s

/-- Arrival timer expiry: MARKER_MISSED, RESIDENT, an ARRIVAL drain (R113). MARKER_MISSED is raised before the status
write-back and the gate notice of the change. DESIGN CHOICE, log entry 18: unsafe. -/
def expireArrival (st : StationId) (s : State) : State :=
  if timerDue s st .arrival then
    changeWith st .resident .arrivalDrain
      (stopTimerOf st (raise (.markerMissed st (s.station st).sequence) s))
  else s

/-! ### Marker entries and buffers (R119 to R122) -/

/-- The station takes the head of the free set for its marker, which joins link 3's GAME queue (R121). The buffer of a
station without one, which no run reaches, reads as 0. DESIGN CHOICE, log entry 36: safe. -/
def takeMarkerEntry (st : StationId) (i : Nat) (s : State) : State :=
  let x := s.station st
  let e : Entry :=
    { state := .queued, staging := none, station := some st, cls := .game, length := 64, cost := markerCost s,
      stamp := 0, origin := .marker, exempt := true, egressSlot := none,
      marker := some (x.markerBuffer.getD 0, x.sequence) }
  joinQueue .backhaul .game i ((takeEntry i e s).setStation st { x with markerPhase := .sending })

/-- A station leaves the pending-marker list. -/
def leavePending (st : StationId) (s : State) : State :=
  { s with handoff := { s.handoff with pendingMarkers := s.handoff.pendingMarkers.filter (fun t => t ≠ st) } }

/-- The marker buffer of a station is freed and its phase becomes NONE. -/
def dropMarker (st : StationId) (s : State) : State :=
  let x := s.station st
  { s.setStation st { x with markerPhase := .none, markerBuffer := none } with
    handoff := { s.handoff with
      busyBuffers := s.handoff.busyBuffers.filter (fun b => some b ≠ x.markerBuffer) } }

/-- A free buffer and the first station that waits for one (R119). -/
def bufferService (s : State) : Option (Nat × StationId) :=
  match freeBuffer s, firstWaiting s .waitBuffer with
  | some b, some st => some (b, st)
  | _, _ => none

/-- The freed buffer goes to the first station waiting for one, whose fill begins (R119). -/
def serveBuffer (s : State) : State :=
  match bufferService s with
  | some (b, st) => beginFill st b (leavePending st s)
  | none => s

/-- A release outstanding with no stalled link serves the first station in WAIT_ENTRY (R20, R120). -/
def serveMarkerEntry (s : State) : State :=
  match firstWaiting s .waitEntry, freeHead s with
  | some st, some i =>
    takeMarkerEntry st i
      { leavePending st s with admission := { s.admission with releases := s.admission.releases - 1 } }
  | _, _ => s

/-- The end of a fill in ACTIVE mode: the station takes an entry or waits for one (R120). -/
def endFillActive (st : StationId) (s : State) : State :=
  match freeHead s with
  | some i => takeMarkerEntry st i s
  | none => waitMarker st .waitEntry s

/-! ### Marker detection (R123, R124) -/

/-- A marker naming a valid station with sequence `q` is detected on link 3 (R123). -/
def detectMarker (st : StationId) (q : Byte) (s : State) : State :=
  let x := s.station st
  if x.handoff = some .arriving then
    if q = x.sequence then changeWith st .resident .arrivalDrain (stopTimerOf st s)
    else raise (.staleMarker st q x.sequence) s
  else setEarly st (some q) s

end Sys2Proof.Machine
end

