-- ==== Sys2Proof/Machine/Admission.lean ====
section
/-! DEFINITION. The admission unit: ownership, ready reports, admission reads, classification, stalls and the service
of releases (sections 1.3 to 1.7). -/

namespace Sys2Proof.Machine

open Sys2Proof

/-! ### Ownership and readiness (R8, R9, R21) -/

/-- The slot is owned by the part: its admission read is in flight, it is the held slot of a stall, or a live entry
has it as its staging slot (R9). DEDUCED, log entry 5: safe. -/
def slotOwned (s : State) (l : Link) (slot : Nat) : Bool :=
  decide ((s.link l).admissionRead = some slot) ||
  ((s.link l).stall.isSome && decide ((s.link l).cursor = slot)) ||
  s.entries.any (fun c => decide (c.2.state ≠ .free) && decide (c.2.staging = some (l, slot)))

def setReady (l : Link) (r : List Nat) (s : State) : State := s.setLink l { s.link l with ready := r }

/-- A ready report of a slot (R8). -/
def reportReady (l : Link) (slot : Nat) (s : State) : State :=
  match s.loader.mode with
  | .loading => setReady l (insertSlot slot (s.link l).ready) s
  | .active => if slotOwned s l slot then s else setReady l (insertSlot slot (s.link l).ready) s
  | .stopping => if slotOwned s l slot then s else writeSlotStatus l slot .returned s
  | .transparent => s

/-- The admission of the cursor slot ends: the cursor advances (R9). -/
def advanceCursor (l : Link) (s : State) : State :=
  s.setLink l { s.link l with cursor := nextSlot (s.link l).cursor (ringsOf s l).stagingSize }

/-- All three conditions of R10 hold for the link's cursor slot. -/
def admissionIssueDue (s : State) (l : Link) : Bool :=
  decide (s.loader.mode = .active) && (s.link l).ready.contains (s.link l).cursor &&
    !slotOwned s l (s.link l).cursor && (s.link l).admissionRead.isNone && (s.link l).stall.isNone

/-- Issue the admission read of the cursor slot: its flag is cleared and the slot becomes owned (R10). Only
ADMISSION_READ_ISSUE asks for it. DESIGN CHOICE, log entry 45: unsafe. -/
def issueAdmission (l : Link) (s : State) : State :=
  if admissionIssueDue s l then
    issue (.admissionRead l (slotWord (ringsOf s l).stagingBase (s.link l).cursor 0))
      (s.setLink l { s.link l with
        ready := (s.link l).ready.filter (fun n => n ≠ (s.link l).cursor)
        admissionRead := some (s.link l).cursor })
  else s

/-! ### Classification (R12 to R17) -/

/-- The station of a descriptor, with UNKNOWN_STATION where its record is not valid (R12). -/
def classStation (s : State) (d : List Word) : Option StationId :=
  (stationOfField (frameStation d)).filter (fun st => (s.station st).valid)

/-- The descriptor names a station whose record is not valid (R12). -/
def unknownStation (s : State) (d : List Word) : Bool :=
  (stationOfField (frameStation d)).isSome && (classStation s d).isNone

/-- The class: GAME on a flow-table hit, else the hint (R14). -/
def frameClass (s : State) (l : Link) (d : List Word) : Cls :=
  if flowHit s (frameHash d) l (classStation s d) then .game else frameHint d

/-- The access state closes the station's traffic (R15). -/
def accessClosed (x : Station) : Bool := decide (x.access = some .blocked) || decide (x.access = some .paused)

/-- The handoff states in which access is enforced on this node (R95). -/
def enforcedHere (x : Station) : Bool :=
  decide (x.handoff = some .resident) || decide (x.handoff = some .arriving) || decide (x.handoff = some .departing)

/-- The access step nullifies the frame BLOCKED (R15). -/
def accessBlocks (s : State) (st : Option StationId) (exempt : Bool) : Bool :=
  match st with
  | none => false
  | some t => !exempt && enforcedHere (s.station t) && accessClosed (s.station t)

/-- Where the placement step sends a frame (R16). -/
inductive Placement where
  | queue (l : Link)
  | hold (st : StationId)
  | backhaul (st : StationId)
  | notHere
deriving DecidableEq, Repr

/-- The placement step (R16). -/
def placement (s : State) (l : Link) (st : Option StationId) : Placement :=
  match st with
  | none => .queue l
  | some t =>
    let x := s.station t
    if draining x || !x.holdList.isEmpty then .hold t
    else match x.handoff with
      | some .resident => .queue l
      | some .departing => .hold t
      | some .arriving => .hold t
      | some .forwarding => .backhaul t
      | some .releasing => .notHere
      | some .absent => .notHere
      | none => .queue l

/-- Nullify a frame at admission: its status is written, no entry is taken (R18). -/
def refuseFrame (l : Link) (slot : Nat) (st : SlotStatus) (s : State) : State := writeSlotStatus l slot st s

/-- The class queue is at or above its cap (R4). -/
def queueFull (s : State) (l : Link) (c : Cls) : Bool := decide (queueCap s l c ≤ (s.queue l c).length)

/-- A classified frame, before it takes an entry. -/
structure Frame where
  link : Link
  slot : Nat
  station : Option StationId
  cls : Cls
  length : Nat
  exempt : Bool
deriving DecidableEq, Repr

/-- The entry a frame fills, but for its stamp (R17). -/
def frameEntry (f : Frame) (st : EntryState) (o : Origin) (cost : Nat) : Entry :=
  { state := st, staging := some (f.link, f.slot), station := f.station, cls := f.cls, length := f.length,
    cost := cost, stamp := 0, origin := o, exempt := f.exempt, egressSlot := none, marker := none }

/-- The outcome of a classification: the state, and whether the frame took an entry. -/
abbrev Classified := State × Bool

/-- The limit step, and the taking of entry `i` where it passes (R17). DEDUCED, log entry 37: unsafe. The status write of
a nullified frame is issued before its event. DESIGN CHOICE, log entry 18: unsafe. -/
def placeFrame (i : Nat) (f : Frame) (p : Placement) (s : State) : Classified :=
  match p with
  | .notHere => (refuseFrame f.link f.slot .notHere s, false)
  | .queue l =>
    if queueFull s l f.cls then
      (raise (.queueDrop f.link f.cls f.slot) (refuseFrame f.link f.slot .queueFull s), false)
    else
      (joinQueue l f.cls i
        (takeEntry i (frameEntry f .queued .direct (directCost s f.link f.station f.length)) s), true)
  | .backhaul st =>
    if queueFull s .backhaul f.cls then
      (raise (.queueDrop f.link f.cls f.slot) (refuseFrame f.link f.slot .queueFull s), false)
    else
      let s1 := takeEntry i (frameEntry f .queued .forwarded (forwardedCost s f.length)) s
      (joinQueue .backhaul f.cls i
        (s1.setStation st { s1.station st with forwardCount := (s1.station st).forwardCount + 1 }), true)
  | .hold st =>
    if holdFull s st then
      (raise (.holdDrop f.link f.slot) (refuseFrame f.link f.slot .holdFull s), false)
    else
      (holdTail st i
        (takeEntry i (frameEntry f .held .direct (directCost s f.link f.station f.length)) s), true)

/-- Raise UNKNOWN_STATION where the descriptor names an invalid station (R12). -/
def raiseUnknown (l : Link) (slot : Nat) (d : List Word) (s : State) : State :=
  if unknownStation s d then raise (.unknownStation l slot (frameStation d)) s else s

/-- Classify the descriptor of a slot with entry `i` free (R12 to R17). The status write of a malformed frame is issued
before MALFORMED. DESIGN CHOICE, log entry 18: unsafe. -/
def classify (i : Nat) (l : Link) (slot : Nat) (d : List Word) (s : State) : Classified :=
  if frameLength d = 0 then
    (raise (.malformed l slot) (refuseFrame l slot .malformed s), false)
  else
    let s1 := raiseUnknown l slot d s
    let st := classStation s1 d
    let f : Frame :=
      { link := l, slot := slot, station := st, cls := frameClass s1 l d, length := frameLength d,
        exempt := frameExempt d }
    if accessBlocks s1 st f.exempt then (refuseFrame l slot .blocked s1, false)
    else placeFrame i f (placement s1 l st) s1

/-! ### Stalls and releases (R19, R20) -/

/-- The link enters a stall, keeping the descriptor words (R19). -/
def enterStall (l : Link) (d : List Word) (s : State) : State :=
  raise (.poolStall l) (s.setLink l { s.link l with stall := some d })

/-- The first stalled link in rotation after the last link served (R20). -/
def nextStalled (s : State) : Option Link :=
  ([1, 2, 3, 4].map (fun k => linkOf (linkNumber s.admission.lastServed + k))).find?
    (fun l => (s.link l).stall.isSome)

/-- The served link's stall ends and it becomes the last link served (R20). -/
def endStall (l : Link) (s : State) : State :=
  { s.setLink l { s.link l with stall := none } with admission := { s.admission with lastServed := l } }

/-- One release event has been spent. -/
def spendRelease (s : State) : State :=
  { s with admission := { s.admission with releases := s.admission.releases - 1 } }

/-- No release is outstanding any more: no one is waiting (R20). -/
def dropReleases (s : State) : State := { s with admission := { s.admission with releases := 0 } }

/-- A release serves a stalled link: it classifies its held descriptor at once; a placement spends the release, a
nullification passes it on (R20). -/
def serveStalled (l : Link) (i : Nat) (d : List Word) (s : State) : State :=
  let c := classify i l (s.link l).cursor d (endStall l s)
  advanceCursor l (if c.2 then spendRelease c.1 else c.1)

/-- A release is outstanding, an entry is free and the mode is ACTIVE. -/
def releaseOutstanding (s : State) : Bool :=
  decide (s.loader.mode = .active) && decide (0 < s.admission.releases) && (freeHead s).isSome

/-- Releases outstanding with no one waiting are over (R20). -/
def settleReleases (s : State) : State := if entryAwaited s then s else dropReleases s

/-- One service of a stalled link, where one is due. -/
def serveStallDue (s : State) : State :=
  match nextStalled s, freeHead s with
  | some l, some i => settleReleases (serveStalled l i ((s.link l).stall.getD []) s)
  | _, _ => s

/-- A stalled link is to be served. -/
def stallServiceDue (s : State) : Bool := releaseOutstanding s && anyStalled s

/-- A station in WAIT_ENTRY is to be served: no stalled link remains (R20, R120). -/
def markerServiceDue (s : State) : Bool :=
  releaseOutstanding s && !anyStalled s && (firstWaiting s .waitEntry).isSome

/-- A marker buffer is to be handed over (R119). -/
def bufferServiceDue (s : State) : Bool := decide (s.loader.mode = .active) && (bufferService s).isSome

/-- Some service is due. -/
def serviceDue (s : State) : Bool := stallServiceDue s || markerServiceDue s || bufferServiceDue s

/-- The next service that is due: stalled links, then waiting marker entries (R20), then marker buffers (R119). No rule
orders a release and a freed buffer that are due together, as after the end of a marker (R60, R122): the release is
served first. DESIGN CHOICE, log entry 4: unsafe. -/
def serveNext (s : State) : State :=
  if stallServiceDue s then serveStallDue s
  else if markerServiceDue s then settleReleases (serveMarkerEntry s)
  else if bufferServiceDue s then serveBuffer s
  else s

/-- The services that are due, at most `n` of them. -/
def serveUpTo : Nat → State → State
  | 0, s => s
  | n + 1, s => if serviceDue s then serveUpTo n (serveNext s) else s

/-- Take the services the last command left due (R20, R119): each release and each freed buffer is handed over before
anything else is taken. A release serves at most one placement, a stall is ended at most once for each link, and a
buffer at most once for each of the 8, so this many services take all of them.
DESIGN CHOICE, log entry 4: unsafe. -/
def settle (s : State) : State := serveUpTo (s.admission.releases + 12) s

/-- What precedes every command: the outputs of the last one are gone and the services it left due are taken. -/
def start (s : State) : State := settle { s with out := [] }

end Sys2Proof.Machine
end

