-- ==== Sys2Proof/Machine/Egress.lean ====
section
/-! DEFINITION. The airtime scheduler: the end of a stop, the read list, pulls, answers, stray accesses and
completions, and GAME_ACTIVE (sections 3, 8.3, R176). -/

namespace Sys2Proof.Machine

open Sys2Proof

/-! ### The end of a stop (R176) -/

/-- Issue a write of the whole device status word with the values standing, and whether a NONE write follows it
(R168). -/
def issueDeviceStatus (thenNone : Bool) (s : State) : State := issue (.deviceStatus (deviceStatusWord s) thenNone) s

/-- A marker fill is in progress. -/
def fillInProgress (s : State) : Bool := allStations.any (fun st => decide ((s.station st).markerPhase = .filling))

/-- Every in-flight set is empty, no admission read is in flight and no fill is in progress (R176). -/
def stopMayEnd (s : State) : Bool :=
  allLinks.all (fun l => (s.link l).inFlight.isEmpty && (s.link l).admissionRead.isNone) && !fillInProgress s

/-- Credits, tokens and the rotation pointer of a link at the end of a stop (R38, R49). -/
def clearAirtime (l : Link) (s : State) : State :=
  s.setLink l { s.link l with credits := ⟨0, 0, 0, 0⟩, tokens := 0, pointer := .game }

/-- The end of a stop, in one act (R176): the device status write, then STOPPED. DESIGN CHOICE, log entry 18, for the
order: unsafe. -/
def endStop (byTimeout : Bool) (s : State) : State :=
  let s1 := forEach clearAirtime allLinks s
  let s2 := { s1 with loader := { s1.loader with mode := .transparent, stopTimer := none, map := none } }
  raise (.stopped byTimeout s2.loader.abandoned) (issueDeviceStatus false s2)

/-- The loader's test of the end condition (R176). -/
def testStopEnd (s : State) : State :=
  if s.loader.mode = .stopping ∧ stopMayEnd s then endStop false s else s

/-! ### The read list (R153) -/

def setProgress (id : Nat) (p : ReadProgress) (s : State) : State :=
  { s with bus := { s.bus with
      reads := s.bus.reads.map (fun r => if r.id = id then { r with progress := p } else r) } }

/-- The answers that may be returned now, and the reads that stay: answers go in request order (R153). -/
def readyFront : List ReadEntry → List (List Beat) × List ReadEntry
  | [] => ([], [])
  | r :: rs =>
    match r.progress with
    | .ready b => (b :: (readyFront rs).1, (readyFront rs).2)
    | .forwarded => ([], r :: rs)
    | .waiting .. => ([], r :: rs)
    | .answering _ => ([], r :: rs)

/-- Return every answer that no earlier read holds back (R153). -/
def returnReady (s : State) : State :=
  { s with
    out := s.out ++ (readyFront s.bus.reads).1.map .readAnswer
    bus := { s.bus with reads := (readyFront s.bus.reads).2 } }

/-- The answer of a read is complete (R153). -/
def completeRead (id : Nat) (beats : List Beat) (s : State) : State := returnReady (setProgress id (.ready beats) s)

/-- Answer a read with words of the part's own (R150). -/
def answerRead (id : Nat) (ws : List Word) (s : State) : State := completeRead id (answerBeats ws) s

/-- A read joins the forwarded stream; it follows every own write issued before its acceptance (R153, R162). -/
def forwardRead (r : ReadEntry) (s : State) : State :=
  setProgress r.id .forwarded
    { s with bus := { s.bus with
        forwarded := s.bus.forwarded ++ [⟨s.bus.nextForwarded, .read r.id r.addr r.beats r.after⟩]
        nextForwarded := s.bus.nextForwarded + 1 } }

/-! ### In-flight sets and answers (R6, R51, R55, R56) -/

/-- The member of a link's in-flight set on a slot. -/
def inFlightOn (s : State) (l : Link) (slot : Nat) : Option InFlight :=
  (s.link l).inFlight.find? (fun f => f.slot = slot)

/-- The eight words of the answer given on a slot; none where the slot is not in flight in the sense of R40. -/
def answerOn (s : State) (l : Link) (slot : Nat) : Option (List Word) :=
  match inFlightOn s l slot with
  | some f => f.copy.map (fun c => c ++ [egressControlWord s f.entry])
  | none => none

/-- The words of an answer that a read covers. -/
def covered (ws : List Word) (first count : Nat) : List Word := (ws.drop first).take count

/-- The entry of a slot leaves the in-flight set, and its answer copy is discarded. -/
def leaveInFlight (l : Link) (slot : Nat) (s : State) : State :=
  s.setLink l { s.link l with inFlight := (s.link l).inFlight.filter (fun f => f.slot ≠ slot) }

/-- The answer copy is kept with the entry, the cursor advances, and the read is answered (R51). -/
def giveAnswer (l : Link) (a : Answering) (copy : List Word) (s : State) : State :=
  let s1 := s.setLink l { s.link l with
    inFlight := (s.link l).inFlight.map (fun f => if f.slot = a.slot then { f with copy := some copy } else f)
    answerCursor := nextSlot (s.link l).answerCursor (ringsOf s l).egressSize
    answering := none }
  answerRead a.read (covered (copy ++ [egressControlWord s a.entry]) a.first a.count) s1

/-! ### GAME_ACTIVE (R62, R63) -/

/-- A GAME frame is chosen: the flag is set, the quiet timer restarts, and a change is reported to the gate (R62,
R63). -/
def gameChosen (s : State) : State :=
  let s1 := { s with game := { active := true, quiet := some (expiryAfter s (quietInterval s)) } }
  if s.game.active then s1 else noticeGate s1

/-- The quiet timer expires (R63). -/
def expireQuiet (s : State) : State :=
  if s.game.quiet = some s.clock.now then noticeGate { s with game := { active := false, quiet := none } } else s

/-! ### Head cleanup (R43, R44) -/

/-- What head cleanup does with a head entry. -/
inductive HeadAction where
  | block
  | divert (st : StationId)
  | notHere
  | clean
deriving DecidableEq, Repr

/-- The first row of R43's table that applies to a head entry. -/
def headAction (s : State) (e : Entry) : HeadAction :=
  match e.origin, e.station with
  | .direct, some st =>
    if accessBlocks s (some st) e.exempt then .block
    else match (s.station st).handoff with
      | some .departing => .divert st
      | some .arriving => .divert st
      | some .releasing => .notHere
      | some .absent => .notHere
      | some .resident => .clean
      | some .forwarding => .clean
      | none => .clean
  | _, _ => .clean

/-- A head-cleanup divert (R44). -/
def divertHead (st : StationId) (i : Nat) (s : State) : State :=
  if holdFull s st then dropHeld i s else holdByStamp st i s

/-- Clean the head of one class queue, examining at most `n` heads (R43). -/
def cleanHead (l : Link) (c : Cls) : Nat → State → State
  | 0, s => s
  | n + 1, s =>
    match s.queue l c with
    | [] => s
    | i :: _ =>
      match headAction s (s.entry i) with
      | .clean => s
      | .block => cleanHead l c n (nullifyEntry i .blocked (leaveQueue l c i s))
      | .notHere => cleanHead l c n (nullifyEntry i .notHere (leaveQueue l c i s))
      | .divert st => cleanHead l c n (divertHead st i (leaveQueue l c i s))

/-- Head cleanup of a link: GAME, INTERACTIVE, BULK, UPDATE (R43). -/
def cleanHeads (l : Link) (s : State) : State :=
  forEach (fun c s => cleanHead l c (s.queue l c).length s) allClasses s

/-! ### The credit rotation (R46 to R48) -/

/-- What the rotation reads of a class: whether it is eligible, whether its queue is empty, its head's cost and its
quantum. -/
structure ClassView where
  eligible : Bool
  empty : Bool
  cost : Nat
  quantum : Nat
deriving DecidableEq, Repr

/-- A class is eligible (R46). -/
def classEligible (s : State) (l : Link) (c : Cls) : Bool :=
  !(s.queue l c).isEmpty &&
    match c with
    | .game => decide ((s.link l).tokens ≤ 0)
    | .update => !s.game.active
    | .interactive => true
    | .bulk => true

/-- The view of a class at a pull. -/
def classView (s : State) (l : Link) (c : Cls) : ClassView :=
  { eligible := classEligible s l c
    empty := (s.queue l c).isEmpty
    cost := ((s.queue l c).head?.map (fun i => (s.entry i).cost)).getD 0
    quantum := quantum s l c }

/-- The views of the four classes. -/
def classViews (s : State) (l : Link) : PerClass ClassView :=
  ⟨classView s l .game, classView s l .interactive, classView s l .bulk, classView s l .update⟩

/-- The visits of R47 from class `c` on, at most `n` of them: the class whose head is chosen, with the credits the
visits leave. The pointer stays on the chosen class. -/
def rotate (v : PerClass ClassView) : Nat → PerClass Int → Cls → Option (Cls × PerClass Int)
  | 0, _, _ => none
  | n + 1, k, c =>
    if (v.get c).eligible then
      if ((v.get c).cost : Int) ≤ k.get c then some (c, k.put c (k.get c - (v.get c).cost))
      else rotate v n (k.put c (addQuantum (k.get c) (v.get c).quantum)) (clsAfter c)
    else if (v.get c).empty then rotate v n (k.put c (forgive (k.get c))) (clsAfter c)
    else rotate v n k (clsAfter c)

/-- Some class is eligible (R48). -/
def anyEligible (v : PerClass ClassView) : Bool := allClasses.any (fun c => (v.get c).eligible)

/-- The rotation of a pull: no visit where no class is eligible (R48). -/
def rotation (v : PerClass ClassView) (k : PerClass Int) (c : Cls) : Option (Cls × PerClass Int) :=
  if anyEligible v then rotate v Config.rotationBound k c else none

/-! ### The pull (R42, R45, R50 to R52) -/

/-- An egress read: its number in the read list, the slot, the first word and the number of words. -/
structure EgressRead where
  id : Nat
  slot : Nat
  first : Nat
  count : Nat
deriving DecidableEq, Repr

/-- Answer an egress read with the empty descriptor's words (R41). -/
def answerEmpty (r : EgressRead) (s : State) : State := answerRead r.id (emptyWords r.first r.count) s

/-- The chosen entry leaves its queue's head and joins the in-flight set on the pull's slot (R50). -/
def putInFlight (l : Link) (c : Cls) (slot i : Nat) (s : State) : State :=
  let s1 := leaveQueue l c i s
  let s2 := s1.setEntry i { s1.entry i with state := .inFlight, egressSlot := some slot }
  s2.setLink l { s2.link l with inFlight := (s2.link l).inFlight ++ [⟨slot, i, none⟩] }

/-- The choice of a DIRECT entry with a station marks the station active (R50, R79). -/
def markChosen (i : Nat) (s : State) : State :=
  match (s.entry i).origin, (s.entry i).station with
  | .direct, some st => s.setStation st { s.station st with active := true }
  | _, _ => s

/-- The seven words of a marker's answer copy (R52). -/
def markerCopy (s : State) (i : Nat) : List Word :=
  [word (bufferAddress s (((s.entry i).marker.map Prod.fst).getD 0)), 0, 0, 0, 0, 0, 0]

/-- The byte address of an entry's staging descriptor. -/
def descriptorAddress (s : State) (i : Nat) : Nat :=
  match (s.entry i).staging with
  | some (l, slot) => slotWord (ringsOf s l).stagingBase slot 0
  | none => 0

/-- Begin the answer of a chosen entry: a marker is answered at once, any other waits on its staging read (R51,
R52). -/
def beginAnswer (l : Link) (r : EgressRead) (i : Nat) (s : State) : State :=
  let a : Answering := { read := r.id, slot := r.slot, entry := i, first := r.first, count := r.count }
  if (s.entry i).origin = .marker then giveAnswer l a (markerCopy s i) s
  else
    issue (.answerRead l (descriptorAddress s i))
      (setProgress r.id (.answering l) (s.setLink l { s.link l with answering := some a }))

/-- The choice of the head of a class queue (R50). At a GAME choice that sets GAME_ACTIVE the gate's write-back and
event (R62, R63, R144, R145) come before the staging read of the answer (R51). DESIGN CHOICE, log entry 18: unsafe. -/
def chooseHead (l : Link) (r : EgressRead) (c : Cls) (s : State) : State :=
  match s.queue l c with
  | [] => answerEmpty r s
  | i :: _ =>
    let s1 := putInFlight l c r.slot i s
    let s2 := if c = .game then gameChosen s1 else s1
    beginAnswer l r i (markChosen i s2)

/-- The cost of the head of a class queue. -/
def headCost (s : State) (l : Link) (c : Cls) : Nat := (classView s l c).cost

/-- Strict game service is given (R45). -/
def strictDue (s : State) (l : Link) : Bool :=
  !(s.queue l .game).isEmpty && decide (0 < (s.link l).tokens)

/-- The choice of a pull after head cleanup: strict service, else the rotation, else the empty descriptor (R42). -/
def choose (l : Link) (r : EgressRead) (s : State) : State :=
  if strictDue s l then
    chooseHead l r .game (setTokens l (chargeTokens (s.link l).tokens (headCost s l .game)) s)
  else
    match rotation (classViews s l) (s.link l).credits (s.link l).pointer with
    | some (c, k) => chooseHead l r c (s.setLink l { s.link l with credits := k, pointer := c })
    | none => answerEmpty r s

/-- A pull (R42). -/
def pull (l : Link) (r : EgressRead) (s : State) : State := choose l r (cleanHeads l s)

/-! ### Egress reads (R39, R40, R55 to R57, R64) -/

/-- An egress read that the scheduler of the link takes in ACTIVE mode (R40). -/
def takeActive (l : Link) (r : EgressRead) (s : State) : State :=
  match answerOn s l r.slot with
  | some ws => answerRead r.id (covered ws r.first r.count) s
  | none =>
    if r.first = 0 then
      if r.slot = (s.link l).answerCursor then pull l r s
      else raise (.egressOrder l r.slot (s.link l).answerCursor) (answerEmpty r s)
    else answerRead r.id (List.replicate r.count 0) s

/-- An egress read taken in STOPPING (R64). -/
def takeStopping (l : Link) (r : EgressRead) (s : State) : State :=
  match answerOn s l r.slot with
  | some ws => answerRead r.id (covered ws r.first r.count) s
  | none => if r.first = 0 then answerEmpty r s else answerRead r.id (List.replicate r.count 0) s

/-- The scheduler of a link takes an egress read, by the mode standing (R39, R158). -/
def takeEgress (l : Link) (e : ReadEntry) (r : EgressRead) (s : State) : State :=
  match s.loader.mode with
  | .active => takeActive l r s
  | .stopping => takeStopping l r s
  | .loading => answerEmpty r s
  | .transparent => forwardRead e s

/-- The oldest egress read that waits for the scheduler of a link. -/
def oldestWaiting (l : Link) : List ReadEntry → Option (ReadEntry × EgressRead)
  | [] => none
  | e :: es =>
    match e.progress with
    | .waiting k slot first => if k = l then some (e, ⟨e.id, slot, first, e.beats⟩) else oldestWaiting l es
    | .forwarded => oldestWaiting l es
    | .answering _ => oldestWaiting l es
    | .ready _ => oldestWaiting l es

/-- The scheduler takes the link's next waiting read, once the answer to the previous one has been given (R39). -/
def takeNext (l : Link) (s : State) : State :=
  if (s.link l).answering.isNone then
    match oldestWaiting l s.bus.reads with
    | some (e, r) => takeEgress l e r s
    | none => s
  else s

/-! ### The return of an answer's staging read (R51, R53) -/

/-- The nullification of a failed answer: the event's fields and the status write (R53). -/
def raiseAnswerError (l : Link) (a : Answering) (s : State) : State :=
  match (s.entry a.entry).staging with
  | some (sl, ss) => raise (.memoryErrorAnswer sl ss l a.slot) s
  | none => s

/-- The answer fails (R53). MEMORY_ERROR is raised before the status write. DESIGN CHOICE, log entry 18: unsafe. -/
def failAnswer (l : Link) (a : Answering) (s : State) : State :=
  let s1 := leaveInFlight l a.slot (s.setLink l { s.link l with answering := none })
  let s2 := nullifyEntry a.entry .memoryError (raiseAnswerError l a s1)
  testStopEnd (answerEmpty ⟨a.read, a.slot, a.first, a.count⟩ s2)

/-- The staging read of a link's answer returns (R51). -/
def returnAnswer (l : Link) (beats : List Beat) (s : State) : State :=
  match (s.link l).answering with
  | some a =>
    if beats.all (fun b => b.good) then giveAnswer l a ((beats.take 7).map (fun b => b.data)) s
    else failAnswer l a s
  | none => s

/-! ### Egress writes and completions (R58 to R61) -/

/-- A completion of a DIRECT or FORWARDED entry (R59). -/
def completeFrame (l : Link) (slot i retries : Nat) (failed : Bool) (s : State) : State :=
  let s1 := writeEntryStatus i (if failed then .failed else .sent) (leaveInFlight l slot s)
  freeEntry i (chargeUsage i retries (chargeRetries l i retries s1))

/-- The station's marker has been sent, or its third send has failed: buffer and entry are freed and the station
becomes ABSENT (R122). R125 raises HANDOFF_DONE or MARKER_LOST together with the HANDOFF_STATE of the change and orders
neither: the marker's event is raised first. DESIGN CHOICE, log entry 18: unsafe. -/
def finishMarker (st : StationId) (i : Nat) (lost : Bool) (s : State) : State :=
  let q := (s.station st).sequence
  let s1 := freeEntry i (dropMarker st s)
  changeState st .absent 0 (raise (if lost then .markerLost st q else .handoffDone st q) s1)

/-- The sends of a station's marker rise by one (R122). -/
def countSend (st : StationId) (s : State) : State :=
  s.setStation st { s.station st with markerSends := (s.station st).markerSends + 1 }

/-- The controller acts on a marker's completion: the sends rise at each, in STOPPING too (R122). -/
def judgeMarker (st : StationId) (i : Nat) (failed : Bool) (s : State) : State :=
  let s1 := countSend st s
  if s1.loader.mode = .stopping then freeEntry i (dropMarker st s1)
  else if !failed then finishMarker st i false s1
  else if 3 ≤ (s1.station st).markerSends then finishMarker st i true s1
  else joinQueue .backhaul .game i s1

/-- A completion of a marker entry (R60). -/
def completeMarker (l : Link) (slot i retries : Nat) (failed : Bool) (s : State) : State :=
  let s1 := chargeRetries l i retries (leaveInFlight l slot s)
  match (s.entry i).station with
  | some st => judgeMarker st i failed s1
  | none => freeEntry i s1

/-- Handle a completion of the entry in flight on a slot; in STOPPING the end of the stop is tested (R58, R61). -/
def complete (l : Link) (f : InFlight) (w : Word) (s : State) : State :=
  let r := bits w 24 4
  let failed := bit w 28
  testStopEnd
    (if (s.entry f.entry).origin = .marker then completeMarker l f.slot f.entry r failed s
     else completeFrame l f.slot f.entry r failed s)

/-- A good word-7 write to an egress slot (R58): a completion where the slot is in flight and lane 3 is enabled
(R185), else a stray. -/
def egressControl (l : Link) (slot : Nat) (w : Word) (m : Lanes) (s : State) : State :=
  match inFlightOn s l slot with
  | some f =>
    if f.copy.isSome ∧ lane m 3 then complete l f w s else raise (.strayCompletion l slot) s
  | none => raise (.strayCompletion l slot) s

end Sys2Proof.Machine
end

