-- ==== Sys2Proof/Machine/Schedules.lean ====
section
/-! DEFINITION. The schedule evaluator: access evaluations, the bonus charge, minute boundaries, clock sets and the
advance of the time base and the week clock (section 5). -/

namespace Sys2Proof.Machine

open Sys2Proof

/-! ### Access evaluations (R88, R91 to R94) -/

/-- The access state of a record with a working bonus count, by the clock as it stands (R88). -/
def accessOf (s : State) (r : StationRecord) (bonus : Nat) : AccessState :=
  if r.pause then .paused
  else if 16 ≤ r.profile ∨ profileAllows s r.profile then .openAccess
  else if 0 < bonus then .bonus
  else .blocked

/-- The access state an evaluation of the station gives (R88). -/
def accessNow (s : State) (st : StationId) : AccessState :=
  accessOf s (s.station st).record (s.station st).bonus

/-- The station takes the access state of an evaluation. -/
def takeAccess (st : StationId) (s : State) : State :=
  s.setStation st { s.station st with access := some (accessNow s st) }

/-- ACCESS_CHANGE, where the evaluation leaves the station in another access state (R94). -/
def raiseAccess (st : StationId) (old : Option AccessState) (s : State) : State :=
  if (s.station st).access = old then s else raise (.accessChange st old (s.station st).access) s

/-- Evaluate a valid station's access, raising ACCESS_CHANGE where it changes (R91, R92, R93). -/
def evaluateAccess (st : StationId) (s : State) : State :=
  raiseAccess st (s.station st).access (takeAccess st s)

/-- The station is charged a bonus minute at a minute boundary (R90). -/
def bonusCharged (x : Station) : Bool := decide (x.access = some .bonus) && x.active

/-- The bonus charge of a minute boundary (R90). -/
def chargeBonus (st : StationId) (s : State) : State :=
  let x := s.station st
  if bonusCharged x then
    let s1 := s.setStation st { x with bonus := x.bonus - 1 }
    if x.bonus - 1 = 0 then raise (.bonusSpent st) s1 else s1
  else s

/-- The activity mark of a station is cleared (R79). -/
def clearMark (st : StationId) (s : State) : State := s.setStation st { s.station st with active := false }

/-- What a minute boundary does to a valid station in ACTIVE mode (R91). -/
def boundaryStation (st : StationId) (s : State) : State :=
  if (s.station st).valid then
    issueStationStatus st 0 (evaluateAccess st (clearMark st (chargeBonus st s)))
  else s

/-- The evaluations of the stations, ascending, and the gate notice of a minute boundary, in that order (R91, R144).
DESIGN CHOICE, log entry 18: unsafe. -/
def atBoundary (s : State) : State :=
  if s.loader.mode = .active then noticeGate (forEach boundaryStation allStations s) else s

/-- The minute after a minute of the week (R83). -/
def nextMinute (m : Nat) : Nat := if m < 10079 then m + 1 else 0

/-- The week clock passes the minute boundary (R83). -/
def passBoundary (s : State) : State :=
  { s with clock := { s.clock with
      minute := nextMinute s.clock.minute, second := 0, subSecond := 0, boundaryDue := false } }

/-- The minute boundary, where the second is about to wrap from 59 to 0 (R83, R91). -/
def minuteBoundary (s : State) : State :=
  if s.clock.boundaryDue then atBoundary (passBoundary s) else s

/-! ### Clock sets (R84, R93) -/

/-- The minute and second fields of the clock word (11.3). -/
def clockMinute (w : Word) : Nat := bits w 0 14
def clockSecond (w : Word) : Nat := bits w 16 6

/-- A good write with these lanes that leaves the clock word at `w` is a clock set, by mode ACTIVE or LOADING (R84). -/
def isClockSet (w : Word) (m : Lanes) : Bool :=
  lane m 3 && bit w 31 && decide (clockMinute w ≤ 10079) && decide (clockSecond w ≤ 59)

/-- The clock takes its minute and second from the merged word and becomes set (R84). A boundary that this
millisecond event would have brought does not take place. -/
def setClock (w : Word) (s : State) : State :=
  { s with clock := { s.clock with
      minute := clockMinute w, second := clockSecond w, subSecond := 0, isSet := true, boundaryDue := false } }

/-- The evaluation of a station at a clock set: a write-back only where its access state changes (R93), after its
ACCESS_CHANGE. DESIGN CHOICE, log entry 18: unsafe. -/
def clockSetStation (st : StationId) (s : State) : State :=
  if (s.station st).valid then
    let s1 := evaluateAccess st s
    if (s1.station st).access = (s.station st).access then s1 else issueStationStatus st 0 s1
  else s

/-- A clock set: in ACTIVE mode every valid station is evaluated, ascending, and then the gate is told (R84, R93, R144).
DESIGN CHOICE, log entry 18, for the order: unsafe. -/
def takeClockSet (w : Word) (s : State) : State :=
  let s1 := setClock w s
  if s1.loader.mode = .active then noticeGate (forEach clockSetStation allStations s1) else s1

/-! ### The advance of the clocks (R81, R83) -/

/-- The reference period, counted from the start of a group of 125 milliseconds, at which millisecond `n` of the
group ends (R81). DESIGN CHOICE, log entry 10: safe. -/
def periodOf (n : Nat) : Nat := (4096 * n + 124) / 125

/-- The week clock at a millisecond event. At 59 s and 999 ms the boundary of this event becomes due: the clock stands
until the boundary, or a clock set, is taken (R83, R84). DESIGN CHOICE, log entry 9: unsafe. -/
def advanceWeek (c : Clock) : Clock :=
  if c.subSecond < 999 then { c with subSecond := c.subSecond + 1 }
  else if c.second < 59 then { c with subSecond := 0, second := c.second + 1 }
  else { c with boundaryDue := true }

/-- The time base and the week clock at a millisecond event (R81, R83). -/
def advanceClock (s : State) : State :=
  let c := advanceWeek s.clock
  { s with clock := { c with now := c.now + 1, inGroup := (c.inGroup + 1) % 125 } }

end Sys2Proof.Machine
end

