-- ==== Sys2Proof/Machine/Stations.lean ====
section
/-! DEFINITION. The station table: signal samples, steering hints, activity marks, receive filtering, and commits
(section 4, R96, R123). -/

namespace Sys2Proof.Machine

open Sys2Proof

/-! ### Signal samples and steering hints (R76 to R78) -/

/-- The smoothed signal after a sample of `x` dBm (R76); the division rounds toward minus infinity. -/
def smooth (old : Option Int) (x : Int) : Int :=
  match old with
  | none => 16 * x
  | some v => v + (16 * x - v) / 8

/-- The dwell run after a home-link sample that leaves the signal at `v` (R77). -/
def nextRun (r : StationRecord) (run : Nat) (v : Int) : Nat :=
  if v < 16 * thresholdOf r then min 255 (run + 1) else 0

/-- The neighbour is strong enough for a hint at signal `v` (R78). -/
def neighbourStrong (r : StationRecord) (v : Int) : Bool :=
  match neighbourOf r with
  | some n => decide (v + 16 * r.margin ≤ 16 * n)
  | none => false

/-- A home-link sample raises the hint; `run` and `v` are as the sample leaves them (R78). -/
def hintRaised (x : Station) (run : Nat) (v : Int) : Bool :=
  x.hintArmed && x.valid && decide (x.handoff = some .resident) && decide (x.record.dwell ≤ run) &&
    neighbourStrong x.record v

/-- The signal has recovered to the re-arm point (R78). -/
def rearms (r : StationRecord) (v : Int) : Bool := decide (16 * (thresholdOf r + r.hysteresis) ≤ v)

/-- A station after a signal sample taken on link `l` (R76 to R78). -/
def sampled (l : Link) (x : Station) (rssi : Int) : Station :=
  let v := smooth x.signal rssi
  let home := decide (x.record.home = l)
  let run := if home then nextRun x.record x.dwellRun v else x.dwellRun
  let raised := home && hintRaised x run v
  { x with signal := some v, dwellRun := run, hintArmed := (x.hintArmed && !raised) || rearms x.record v }

/-- The sample raises STEER_HINT (R78). -/
def sampleRaises (l : Link) (x : Station) (rssi : Int) : Bool :=
  decide (x.record.home = l) &&
    hintRaised x (nextRun x.record x.dwellRun (smooth x.signal rssi)) (smooth x.signal rssi)

/-- Take a signal sample (R75 to R78). -/
def takeSample (l : Link) (st : StationId) (rssi : Int) (s : State) : State :=
  let x := s.station st
  let s1 := s.setStation st (sampled l x rssi)
  if sampleRaises l x rssi then
    raise (.steerHint st (smooth x.signal rssi) ((neighbourOf x.record).getD 0) l) s1
  else s1

/-! ### Receive control words (R75, R79, R96, R123, R157) -/

/-- The valid station a receive control word names, its lane enabled. -/
def namedStation (s : State) (w : Word) (m : Lanes) : Option StationId :=
  if lane m 1 then (receiveStation w).filter (fun st => (s.station st).valid) else none

/-- The word is to be rewritten to FILTERED (R96). -/
def filters (s : State) (w : Word) (m : Lanes) : Bool :=
  match namedStation s w m with
  | some st =>
    lane m 3 && enforcedHere (s.station st) && accessClosed (s.station st) && !receiveIsMgmt w m &&
      !receiveIsMarker w m
  | none => false

/-- The sample a receive control word gives (R75). -/
def sampleOf (s : State) (w : Word) (m : Lanes) : Option (StationId × Int) :=
  match namedStation s w m, receiveRssi w with
  | some st, some x => if lane m 0 && !receiveIsMarker w m then some (st, x) else none
  | _, _ => none

/-- The station table's sample of a receive control word (R75). -/
def sampleReceive (l : Link) (w : Word) (m : Lanes) (s : State) : State :=
  match sampleOf s w m with
  | some (st, x) => takeSample l st x s
  | none => s

/-- The activity mark of a receive control word (R79). -/
def markReceive (filtered : Bool) (w : Word) (m : Lanes) (s : State) : State :=
  match namedStation s w m with
  | some st =>
    if filtered || receiveIsMarker w m then s else s.setStation st { s.station st with active := true }
  | none => s

/-- The marker detection of a receive control word (R123). -/
def detectReceive (l : Link) (w : Word) (m : Lanes) (s : State) : State :=
  match namedStation s w m with
  | some st =>
    if l = .backhaul ∧ receiveIsMarker w m ∧ lane m 2 then detectMarker st (receiveSequence w) s else s
  | none => s

/-- The three blocks act on an inspected receive control word (R157). -/
def inspectReceive (l : Link) (w : Word) (m : Lanes) (s : State) : State :=
  detectReceive l w m (markReceive (filters s w m) w m (sampleReceive l w m s))

/-! ### Commits (R67 to R72) -/

/-- The commit is refused REFUSED_INVALID (R67, R186). -/
def commitInvalid (r : StationRecord) (wasValid : Bool) : Bool :=
  decide (7 < r.request) || decide (r.dwell = 0) || decide (r.threshold = 0) ||
    (!r.valid && decide (r.request ≠ 0)) || (r.valid && !wasValid && decide (1 < r.presence))

/-- The request of a commit is judged; NONE has the result ACCEPTED (R68, R69). -/
def judgeCommit (st : StationId) (r : StationRecord) (s : State) : State :=
  match requestOf r.request with
  | some q => judgeRequest st q s
  | none => setResult st .accepted s

/-- A commit with valid set of a valid station (R68, R89, R92). ACCESS_CHANGE is raised before the acts of the request.
DESIGN CHOICE, log entry 18: unsafe. -/
def recommit (st : StationId) (r : StationRecord) (s : State) : State :=
  judgeCommit st r (evaluateAccess st
    (s.setStation st { s.station st with record := r, bonus := grantOf r }))

/-- The station a validation makes, but for its access state (R70, R99, R118). -/
def validated (r : StationRecord) (stamp : Stamp) (x : Station) : Station :=
  { valid := true, record := r, lastResult := x.lastResult, usage := 0, signal := none, dwellRun := 0,
    hintArmed := true, active := false, access := none, bonus := grantOf r, handoff := some (presenceOf r),
    holdList := [], operation := .idle, movedFrom := .resident, moved := 0, sequence := r.sequence, timer := none,
    forwardCount := 0, carriedCount := x.carriedCount + x.forwardCount, validationStamp := stamp,
    earlyMarker := none, markerPhase := .none, markerBuffer := none, markerSends := 0 }

/-- A commit with valid set of an invalid station (R70); no ACCESS_CHANGE (R94). -/
def validateStation (st : StationId) (r : StationRecord) (s : State) : State :=
  judgeCommit st r (takeAccess st
    (s.setStation st (validated r s.admission.stampCounter (s.station st))))

/-- The station an invalidation leaves: its usage, signal, dwell run, hint flag, bonus and its two counts stay, and
every other field of R99 is cleared, the validation stamp among them (R71, R89, R99, R118). -/
def invalidated (r : StationRecord) (x : Station) : Station :=
  { x with
    valid := false, record := r, lastResult := .accepted, active := false, access := none, handoff := none,
    holdList := [], operation := .idle, movedFrom := .resident, moved := 0, sequence := 0, timer := none,
    validationStamp := 0, earlyMarker := none, markerPhase := .none, markerBuffer := none, markerSends := 0 }

/-- The handoff state allows an invalidation (R71). -/
def mayInvalidate (h : Option HandoffState) : Bool := decide (h = some .resident) || decide (h = some .absent)

/-- A commit with valid clear (R71). R71 gives the nullifications no order: they are made in the queue order that R109
gives for an EVICT, links 0 to 3, GAME to UPDATE, head to tail. DESIGN CHOICE, log entry 18: unsafe. -/
def invalidateStation (st : StationId) (r : StationRecord) (s : State) : State :=
  if !(s.station st).valid then
    s.setStation st { s.station st with record := r, lastResult := .accepted }
  else if mayInvalidate (s.station st).handoff then
    let s1 := forEach (nullifyQueued .notHere)
      (queuedWhere s (fun e => e.station = some st && !(e.origin = .marker))) s
    s1.setStation st (invalidated r (s1.station st))
  else setResult st .refusedState s

/-- What a commit does, by the merged record (R67 to R71). -/
def judgeRecord (st : StationId) (r : StationRecord) (s : State) : State :=
  if commitInvalid r (s.station st).valid then setResult st .refusedInvalid s
  else if !r.valid then invalidateStation st r s
  else if (s.station st).valid then recommit st r s
  else validateStation st r s

/-- A commit: the record the pending copy holds is judged, and the status write-back follows, with a NONE write where
the request was not NONE (R67, R72). -/
def commitStation (st : StationId) (s : State) : State :=
  let r := recordOf s.shadow st
  issueStationStatus st (if r.request = 0 then 0 else 1) (judgeRecord st r s)

end Sys2Proof.Machine
end

