-- ==== Sys2Proof/Machine/Image.lean ====
section
/-! DEFINITION. The image tracker: session commands, fill contexts, the block CRC and the judging of image beats
(section 7). -/

namespace Sys2Proof.Machine

open Sys2Proof

/-! ### Session commands (R129 to R132) -/

def setSession (r : Result) (s : State) : State := { s with image := { s.image with lastResult := r } }

/-- The block count field of the update control block (11.3). -/
def blockCount (s : State) : Nat := bits (shadowWord s 0x184) 0 16

/-- An OPEN is accepted (R130). -/
def openAccepted (s : State) : Bool := decide (1 ≤ blockCount s) && decide (blockCount s ≤ s.image.capacity)

/-- The tracker after an accepted OPEN (R130). -/
def openedTracker (n : Nat) (t : ImageTracker) : ImageTracker :=
  { t with session := .opened, count := n, lastResult := .accepted, blocks := [], verified := 0, contexts := [] }

/-- An OPEN commit (R130). -/
def openSession (s : State) : State :=
  if openAccepted s then noticeGate { s with image := openedTracker (blockCount s) s.image }
  else setSession .refusedInvalid s

/-- The tracker after an accepted CLOSE: the blocks that were FILLING become EMPTY (R131). -/
def closedTracker (t : ImageTracker) : ImageTracker :=
  { t with session := .closed, lastResult := .accepted, contexts := [],
           blocks := t.blocks.filter (fun c => c.2 ≠ .filling) }

/-- A CLOSE commit (R131). -/
def closeSession (s : State) : State :=
  if s.image.session = .opened then noticeGate { s with image := closedTracker s.image }
  else setSession .refusedState s

/-- A session commit with the merged command `c`: each but NONE ends with the update status word and a NONE write
(R129, R132), after the gate's acts. DESIGN CHOICE, log entry 18, for the order: unsafe. -/
def sessionCommand (c : Nat) (s : State) : State :=
  match c with
  | 0 => s
  | 1 => issueUpdateStatus 1 (openSession s)
  | 2 => issueUpdateStatus 1 (closeSession s)
  | _ => issueUpdateStatus 1 (setSession .refusedInvalid s)

/-! ### The CRC (R139) -/

/-- One bit into the register: shifted right, and the polynomial where the bit shifted out differs from the data
bit. -/
def crcBit (r : Word) (d : Bool) : Word := if (r.getLsbD 0) ^^ d then (r >>> 1) ^^^ 0xEDB88320 else r >>> 1

/-- Bits of a word into the register, from bit `k` upward, `n` of them. -/
def crcBits (w : Word) : Nat → Nat → Word → Word
  | _, 0, r => r
  | k, n + 1, r => crcBits w (k + 1) n (crcBit r (w.getLsbD k))

/-- A beat's four bytes into the register: lane 0 first, least significant bit first. -/
def crcBeat (r w : Word) : Word := crcBits w 0 32 r

/-- The register at offset 0. -/
def crcStart : Word := 0xFFFFFFFF

/-- The final value of a register. -/
def crcFinal (r : Word) : Word := r ^^^ 0xFFFFFFFF

/-! ### Blocks, contexts, the verified count (R134, R135) -/

def blockState (s : State) (b : Nat) : BlockState := Table.read .empty s.image.blocks b

def setBlock (b : Nat) (x : BlockState) (s : State) : State :=
  { s with image := { s.image with blocks := Table.write .empty s.image.blocks b x } }

def setContext (c : Nat) (x : FillContext) (s : State) : State :=
  { s with image := { s.image with contexts := Table.insert c x s.image.contexts } }

def freeContext (c : Nat) (s : State) : State :=
  { s with image := { s.image with contexts := Table.erase c s.image.contexts } }

/-- The context that serves a block, with its number. -/
def contextFor (s : State) (b : Nat) : Option (Nat × FillContext) :=
  s.image.contexts.find? (fun c => c.2.block = b)

/-- The context that serves a block is freed (R135). -/
def freeContextFor (b : Nat) (s : State) : State :=
  match contextFor s b with
  | some (c, _) => freeContext c s
  | none => s

/-- A context in use for block `b` after a beat at offset 0 (R137). -/
def freshContext (s : State) (b : Nat) (w : Word) : FillContext :=
  { block := b, next := 1, crc := crcBeat crcStart w, last := s.clock.now }

/-- The lowest-numbered free context (R135). -/
def freeContextNumber (s : State) : Option Nat :=
  (List.range Config.fillContexts).find? (fun c => (Table.find s.image.contexts c).isNone)

/-- The least recently active context of a list in rising number: the greatest age, the lowest number among equals
(R138). -/
def oldestContext (s : State) : Table FillContext → Option (Nat × FillContext)
  | [] => none
  | c :: cs =>
    match oldestContext s cs with
    | none => some c
    | some d => if msAge s c.2.last < msAge s d.2.last then some d else some c

/-- A change of the verified count writes the update status word (R132, R134). -/
def setVerified (n : Nat) (s : State) : State :=
  issueUpdateStatus 0 { s with image := { s.image with verified := n } }

/-- A block has left VERIFIED: the count falls, and where it stood at the session count the gate is evaluated
(R142). -/
def loseVerified (s : State) : State :=
  let s1 := setVerified (s.image.verified - 1) s
  if s.image.verified = s.image.count then noticeGate s1 else s1

/-- A block has become VERIFIED: the count rises, and at the session count the image is complete (R142). The count's
write-back is issued before IMAGE_COMPLETE and the gate's acts. DESIGN CHOICE, log entry 18: unsafe. -/
def gainVerified (s : State) : State :=
  let s1 := setVerified (s.image.verified + 1) s
  if s1.image.verified = s1.image.count then noticeGate (raise (.imageComplete s1.image.count) s1) else s1

/-! ### Beats (R136 to R141) -/

/-- Context `c` serves block `b`, which is FILLING (R137). -/
def serveContext (c b : Nat) (w : Word) (s : State) : State :=
  setBlock b .filling (setContext c (freshContext s b w) s)

/-- A block takes a context: the lowest free one, or the least recently active one, whose block becomes EMPTY with
FILL_EVICTED (R135, R137, R138). -/
def takeContext (b : Nat) (w : Word) (s : State) : State :=
  match freeContextNumber s with
  | some c => serveContext c b w s
  | none =>
    match oldestContext s s.image.contexts with
    | some (c, x) => serveContext c b w (raise (.fillEvicted x.block b c) (setBlock x.block .empty s))
    | none => s

/-- A whole beat at offset 0 (R137). Where a VERIFIED block is begun, FILL_EVICTED comes before the write-back of the
count and the gate's acts (R142). DESIGN CHOICE, log entry 18: unsafe. -/
def beginBlock (b : Nat) (w : Word) (s : State) : State :=
  match blockState s b with
  | .filling =>
    match contextFor s b with
    | some (c, _) => setContext c (freshContext s b w) s
    | none => takeContext b w s
  | .verified => loseVerified (takeContext b w s)
  | .empty => takeContext b w s
  | .bad => takeContext b w s

/-- The next offset a FILLING block expects, with its context. -/
def expected (s : State) (b : Nat) : Option (Nat × FillContext) :=
  if blockState s b = .filling then contextFor s b else none

/-- A whole beat at the next offset, below 255 (R139). -/
def advanceBlock (c : Nat) (x : FillContext) (w : Word) (s : State) : State :=
  setContext c { x with next := x.next + 1, crc := crcBeat x.crc w, last := s.clock.now } s

/-- Manifest entry of a block (R133). -/
def manifestEntry (s : State) (b : Nat) : Word := shadowWord s (0x8000 + 4 * b)

/-- A whole beat at offset 255, the next offset (R140). -/
def finishBlock (c b : Nat) (x : FillContext) (w : Word) (s : State) : State :=
  if crcFinal (crcBeat x.crc w) = manifestEntry s b then
    gainVerified (setBlock b .verified (freeContext c s))
  else raise (.blockBad b .mismatch) (setBlock b .bad (freeContext c s))

/-- A beat out of sequence makes its block BAD, with its cause (R141). Where the block was VERIFIED, BLOCK_BAD comes
before the write-back of the count and the gate's acts (R142). DESIGN CHOICE, log entry 18: unsafe. -/
def spoilBlock (b : Nat) (cause : BadCause) (s : State) : State :=
  match blockState s b with
  | .bad => s
  | .empty => raise (.blockBad b cause) (setBlock b .bad s)
  | .filling => raise (.blockBad b cause) (setBlock b .bad (freeContextFor b s))
  | .verified => loseVerified (raise (.blockBad b cause) (setBlock b .bad s))

/-- The cause of a beat out of sequence (R141). -/
def badCause (w : WrittenWord) : BadCause :=
  if !w.good then .errorMark else if w.mask ≠ 0xF then .partialBeat else .order

/-- A beat is whole: good, with every lane enabled (R136). -/
def wholeBeat (w : WrittenWord) : Bool := w.good && decide (w.mask = 0xF)

/-- One beat of an image write at a byte offset of the image area (R136). -/
def imageBeat (off : Nat) (w : WrittenWord) (s : State) : State :=
  let b := off / 1024
  let k := off / 4 % 256
  if wholeBeat w then
    if k = 0 then beginBlock b w.data s
    else match expected s b with
      | some (c, x) =>
        if x.next = k then (if k < 255 then advanceBlock c x w.data s else finishBlock c b x w.data s)
        else spoilBlock b .order s
      | none => spoilBlock b .order s
  else spoilBlock b (badCause w) s

/-- The beats of an image write in ascending address order (R136). -/
def imageBeats (ws : List WrittenWord) (s : State) : State :=
  forEach (fun w s => imageBeat (w.addr - s.image.base) w s) ws s

/-! ### Stop (R148) -/

/-- The tracker when the mode becomes STOPPING. -/
def stoppedTracker (t : ImageTracker) : ImageTracker :=
  { t with session := .none, blocks := [], verified := 0, contexts := [] }

/-- The session is cleared, the gate evaluated once, and the update status word written in either case. -/
def stopImage (s : State) : State :=
  issueUpdateStatus 0 (evaluateGate { s with image := stoppedTracker s.image })

end Sys2Proof.Machine
end

