-- ==== Sys2Proof/Machine/Loader.lean ====
section
/-! DEFINITION. The loader: device commands, the load with its checks, its success and its failure, and the stop with
its timeout (section 9). -/

namespace Sys2Proof.Machine

open Sys2Proof

/-! ### Areas and checks (R170) -/

/-- The kinds of area a load checks. -/
inductive AreaKind where
  | staging | egress | receive | image
deriving DecidableEq, Repr

/-- An area: its number (11.3), kind, base, slot count or capacity, size in bytes, and start slot where it has one. -/
structure Area where
  number : Nat
  kind : AreaKind
  base : Nat
  slots : Nat
  bytes : Nat
  start : Option Nat
deriving DecidableEq, Repr

/-- The three ring areas of a link. -/
def linkAreas (m : RegionMap) (l : Link) : List Area :=
  let c := m.links.get l
  let n := 4 * linkNumber l
  [ ⟨n, .staging, c.stagingBase, c.stagingSize, 32 * c.stagingSize, some c.stagingStart⟩,
    ⟨n + 1, .egress, c.egressBase, c.egressSize, 32 * c.egressSize, some c.egressStart⟩,
    ⟨n + 2, .receive, c.receiveBase, c.receiveSize, 32 * c.receiveSize, none⟩ ]

/-- The image area; a capacity of 0 forms none. -/
def imageAreas (m : RegionMap) : List Area :=
  if m.capacity = 0 then [] else [⟨16, .image, m.imageBase, m.capacity, 1024 * m.capacity, none⟩]

/-- The ring areas in the order of the checks. -/
def ringAreas (m : RegionMap) : List Area := allLinks.flatMap (linkAreas m)

/-- Every area in the order of the checks. -/
def allAreas (m : RegionMap) : List Area := ringAreas m ++ imageAreas m

/-- A ring size is one of the powers of two allowed. -/
def ringSizeOk (a : Area) : Bool :=
  match a.kind with
  | .egress => [16, 32, 64, 128, 256].contains a.slots
  | .staging => [16, 32, 64, 128, 256, 512, 1024].contains a.slots
  | .receive => [16, 32, 64, 128, 256, 512, 1024].contains a.slots
  | .image => true

/-- The start slot lies in its ring. -/
def startOk (a : Area) : Bool :=
  match a.start with
  | some n => decide (n < a.slots)
  | none => true

/-- The area's last byte lies in memory. -/
def rangeOk (a : Area) : Bool := decide (a.base + a.bytes ≤ Config.lastAddress + 1)

/-- Two spans of bytes share one. -/
def spansMeet (b1 n1 b2 n2 : Nat) : Bool := decide (b1 < b2 + n2) && decide (b2 < b1 + n1)

/-- The first area of a list that meets the span; it is the later of the pair. -/
def firstMeeting (b n : Nat) (as : List Area) : Option Nat :=
  (as.find? (fun a => spansMeet b n a.base a.bytes)).map Area.number

/-- The later area of the first pair of a list that meets, earlier areas first (R170). DEDUCED, log entry 23: unsafe. -/
def firstPair : List Area → Option Nat
  | [] => none
  | a :: as =>
    match firstMeeting a.base a.bytes as with
    | some n => some n
    | none => firstPair as

/-- The first area of a list that fails a test. -/
def firstFailing (ok : Area → Bool) (as : List Area) : Option Nat := (as.find? (fun a => !ok a)).map Area.number

/-- The overlap check, the policy area before every other (R170). -/
def overlapSubject (policy : Nat) (m : RegionMap) : Option Nat :=
  match firstMeeting policy Config.policyBytes (allAreas m) with
  | some n => some n
  | none => firstPair (allAreas m)

/-- The checks of a load in order, each with the subject of its first failure (R170). -/
def loadChecks (policy : Nat) (m : RegionMap) : List (LoadReason × Option Nat) :=
  [ (.ringSize, firstFailing ringSizeOk (ringAreas m)),
    (.imageSize, if 4096 < m.capacity then some 16 else none),
    (.ringAlign, firstFailing (fun a => decide (a.base % a.bytes = 0)) (ringAreas m)),
    (.imageAlign, firstFailing (fun a => decide (a.base % 1024 = 0)) (imageAreas m)),
    (.startSlot, firstFailing startOk (ringAreas m)),
    (.range, firstFailing rangeOk (allAreas m)),
    (.overlap, overlapSubject policy m) ]

/-- The first check that fails: its reason and its subject. -/
def firstFailure : List (LoadReason × Option Nat) → Option (LoadReason × Nat)
  | [] => none
  | (r, some n) :: _ => some (r, n)
  | (_, none) :: cs => firstFailure cs

def checkFailure (policy : Nat) (m : RegionMap) : Option (LoadReason × Nat) := firstFailure (loadChecks policy m)

/-! ### The load (R169, R171) -/

def setLoader (f : Loader → Loader) (s : State) : State := { s with loader := f s.loader }

/-- Issue the load read at an offset, which becomes the read in flight (R169). -/
def issueLoadRead (off : Nat) (d : Load) (s : State) : State :=
  issue (.loadRead off) (setLoader (fun x => { x with load := some { d with next := off + 32, reading := some off } }) s)

/-- A device command with its result (R168). -/
def takeCommand (c : Nat) (r : Result) (s : State) : State :=
  setLoader (fun x => { x with lastCommand := BitVec.ofNat 8 c, lastResult := r }) s

/-- RUN in TRANSPARENT: the mode becomes LOADING and the load begins with an empty copy (R168, R169). The device status
write is issued before the first load read. DESIGN CHOICE, log entry 18: unsafe. -/
def beginLoad (s : State) : State :=
  issueLoadRead 0 { next := 0, reading := none, copy := [], held := [] }
    (issueDeviceStatus true
      (setLoader (fun x => { x with mode := .loading }) (takeCommand 1 .accepted s)))

/-- The words of a returned read placed in the copy: the watched words (R155, R169). -/
def placeWords : Nat → List Beat → Table Word → Table Word
  | _, [], t => t
  | off, b :: bs, t => placeWords (off + 4) bs (if isWatched off then Table.write 0 t (off / 4) b.data else t)

/-- The held writes merged over the words of a returned read (R171). -/
def mergeHeld : List (Nat × Word × Lanes) → Table Word → Table Word
  | [], t => t
  | (off, w, m) :: hs, t => mergeHeld hs (mergeWord t off w m)

/-- A good watched write of a word in LOADING, by where the load stands (R171): the read not issued, no merge; issued
and not returned, held; returned, merged into the copy. -/
def mergeLoading (off : Nat) (w : Word) (m : Lanes) (s : State) : State :=
  match s.loader.load with
  | some d =>
    if d.reading = some (off / 32 * 32) then
      setLoader (fun x => { x with load := some { d with held := d.held ++ [(off, w, m)] } }) s
    else if off < d.next then
      setLoader (fun x => { x with load := some { d with copy := mergeWord d.copy off w m } }) s
    else s
  | none => s

/-- LOAD_FAILED is not raised for an error-marked beat in the event ring region or in the event writer's words of the
control block (R174). -/
def silentAt (off : Nat) : Bool :=
  (decide (0x5000 ≤ off) && decide (off < 0x6000)) || (decide (0x130 ≤ off) && decide (off < 0x144))

/-- Every ready flag is cleared (R174). -/
def clearReady (s : State) : State := forEach (fun l s => setReady l [] s) allLinks s

/-- A failed load (R174). DEDUCED, log entry 29: unsafe. No shadow changes at the failure; what the load merged into the
clock and consumer words stays. DEDUCED, log entry 49: unsafe. The device status write is issued before LOAD_FAILED is
raised. DESIGN CHOICE, log entry 18: unsafe. -/
def failLoad (r : LoadReason) (subject value progress : Nat) (silent : Bool) (s : State) : State :=
  let s1 := issueDeviceStatus false (setLoader (fun x =>
    { x with mode := .transparent, map := none, load := none, failure := r, subject := subject }) (clearReady s))
  if silent then s1 else raise (.loadFailed r value progress) s1

/-! ### A successful load (R73, R74, R173) -/

/-- A record of the copy is taken as valid (R74). -/
def loadsValid (r : StationRecord) : Bool :=
  r.valid && decide (r.dwell ≠ 0) && decide (r.threshold ≠ 0) && decide (r.presence ≤ 1)

/-- The last result a load leaves (R74). -/
def loadResult (r : StationRecord) : Result :=
  if r.valid && !loadsValid r then .refusedInvalid else if r.request = 0 then .none else .refusedState

/-- A station as a load takes it in, but for its access state: valid or not (R74, R99, R118).
DEDUCED, log entry 29: unsafe. -/
def loadedStation (r : StationRecord) (stamp : Stamp) (x : Station) : Station :=
  let ok := loadsValid r
  let keep := ok && x.valid
  { valid := ok, record := r, lastResult := loadResult r,
    usage := if ok && !x.valid then 0 else x.usage,
    signal := if ok && !keep then none else x.signal,
    dwellRun := if ok && !keep then 0 else x.dwellRun,
    hintArmed := if ok && !keep then true else x.hintArmed,
    active := false, access := none,
    bonus := if ok then grantOf r else x.bonus,
    handoff := if ok then some (presenceOf r) else none,
    holdList := [], operation := .idle, movedFrom := .resident, moved := 0,
    sequence := if ok then r.sequence else 0, timer := none,
    forwardCount := 0, carriedCount := 0, validationStamp := if ok then stamp else 0,
    earlyMarker := none, markerPhase := .none, markerBuffer := none, markerSends := 0 }

/-- A load writes the station's status back (R73). -/
def loadWritesBack (r : StationRecord) : Bool := r.valid || decide (r.request ≠ 0)

/-- The station table takes one record (R74). -/
def loadStation (st : StationId) (s : State) : State :=
  let r := recordOf s.shadow st
  let s1 := s.setStation st (loadedStation r s.admission.stampCounter (s.station st))
  let s2 := if loadsValid r then takeAccess st s1 else s1
  if loadWritesBack r then issueStationStatus st (if r.request = 0 then 0 else 1) s2 else s2

/-- A link when the mode becomes ACTIVE (R9, R22, R25, R26, R38, R39, R49). -/
def loadLink (m : RegionMap) (l : Link) (s : State) : State :=
  let c := m.links.get l
  s.setLink l { s.link l with
    cursor := c.stagingStart, lowArmed := false, answerCursor := c.egressStart, credits := ⟨0, 0, 0, 0⟩, tokens := 0,
    pointer := .game, overhead := some (overheadOf c), defaultRate := some (rateOf c) }

/-- The image tracker at a successful load (R128): image base and capacity are taken, the session is NONE. -/
def loadedTracker (m : RegionMap) (t : ImageTracker) : ImageTracker :=
  { t with base := m.imageBase, capacity := m.capacity, session := .none, blocks := [], verified := 0, contexts := [] }

/-- The session command of the shadow (11.3). -/
def sessionField (s : State) : Nat := bits (shadowWord s 0x188) 0 8

/-- A session command found by a load is not acted on (R129). -/
def foundCommand (s : State) : State :=
  if sessionField s = 0 then s else issueUpdateStatus 1 (setSession .refusedState s)

/-- The copy replaces every shadow, and the mode becomes ACTIVE (R173). -/
def takeCopy (d : Load) (s : State) : State :=
  { s with
    shadow := d.copy
    game := { active := false, quiet := none }
    loader := { s.loader with mode := .active, load := none, loaded := true, failure := .none, subject := 0 } }

/-- The gate at the moment the mode becomes ACTIVE: the count of moving stations is 0, and the update status word is
written whatever the previous mask (R143, R144). -/
def loadGate (s : State) : State :=
  issueUpdateStatus 0 (evaluateGate { s with gate := { s.gate with moving := 0 } })

/-- A successful load with region map `m` (R173): the stations' write-backs, the session's, the gate's acts, then the
device status write and LOAD_DONE. DESIGN CHOICE, log entry 18, for the order: unsafe. -/
def succeed (d : Load) (m : RegionMap) (s : State) : State :=
  let s1 := takeCopy d s
  let s2 := forEach (loadLink m) allLinks { s1 with image := loadedTracker m s1.image }
  let s3 := forEach loadStation allStations s2
  let s4 := loadGate (foundCommand s3)
  raise (.loadDone s4.loader.plc) (issueDeviceStatus false s4)

/-- The consumer index word of a returned read is taken as a consumer write (R183), before what the read brings the
load. DESIGN CHOICE, log entry 18, for that order: unsafe. -/
def consumeLoaded (off : Nat) (beats : List Beat) (s : State) : State :=
  if off = 0x140 then consumerIndex (bits (wordAt (beats.map (fun b => b.data)) 0) 0 16) s else s

/-- A load read at `off` has returned good: the words are in the copy, and the load goes on (R169). -/
def continueLoad (off : Nat) (d : Load) (s : State) : State :=
  if off = 0xFE0 then
    match checkFailure (policyBase s) (regionMapOf d.copy) with
    | some (r, n) => failLoad r n n d.next false s
    | none => issueLoadRead 0x1000 d (setLoader (fun x => { x with map := some (regionMapOf d.copy) }) s)
  else if off = 0x3FFE0 then
    match s.loader.map with
    | some m => succeed d m s
    | none => s
  else issueLoadRead (off + 32) d s

/-- The byte offset of the first error-marked beat. -/
def firstBadBeat : Nat → List Beat → Option Nat
  | _, [] => none
  | off, b :: bs => if b.good then firstBadBeat (off + 4) bs else some off

/-- A load read returns (R169, R171, R183). A read with any error-marked beat fails the load before its words are used:
where that is the read at 0x140 and the consumer word's own beat was good, no consumer write is taken.
DESIGN CHOICE, log entry 43: unsafe. -/
def returnLoad (off : Nat) (beats : List Beat) (s : State) : State :=
  match s.loader.load with
  | none => s
  | some d =>
    match firstBadBeat off beats with
    | some bad => failLoad .memory (off / 32) off d.next (silentAt bad) s
    | none =>
      let d1 := { d with reading := none, held := [], copy := mergeHeld d.held (placeWords off beats d.copy) }
      let s1 := setLoader (fun x => { x with load := some d1 }) s
      continueLoad off d1 (consumeLoaded off beats s1)

/-! ### The stop (R23, R126, R175, R176) -/

/-- The ready slots of a link in ring order from its cursor (R23). -/
def readyFromCursor (x : LinkState) : List Nat :=
  x.ready.filter (fun n => x.cursor ≤ n) ++ x.ready.filter (fun n => n < x.cursor)

/-- The ready slots of a link are nullified RETURNED and its flags cleared (R23). -/
def returnReadySlots (l : Link) (s : State) : State :=
  setReady l [] (forEach (fun n s => writeSlotStatus l n .returned s) (readyFromCursor (s.link l)) s)

/-- A stalled link's held slot is nullified RETURNED and its stall ends (R23). DEDUCED, log entry 28: unsafe. -/
def returnStalled (l : Link) (s : State) : State :=
  if (s.link l).stall.isSome then
    advanceCursor l (writeSlotStatus l (s.link l).cursor .returned
      (s.setLink l { s.link l with stall := none }))
  else s

/-- The admission unit's slots of a link at the stop; its low-water flag is disarmed (R22, R23). -/
def stopLink (l : Link) (s : State) : State :=
  let s1 := returnStalled l (returnReadySlots l s)
  s1.setLink l { s1.link l with lowArmed := false }

/-- The station's handoff working state at the stop: sweeps, drains, timers and early markers are abandoned, a
station that waits leaves the list, and its filled buffer is freed (R126). -/
def stopStation (st : StationId) (s : State) : State :=
  let s1 := clearPoints st (s.setStation st { s.station st with
    operation := .idle, timer := none, earlyMarker := none, active := false })
  match (s.station st).markerPhase with
  | .waitBuffer => dropMarker st s1
  | .waitEntry => dropMarker st s1
  | .none => s1
  | .filling => s1
  | .sending => s1

/-- A queued entry at the stop: nullified RETURNED and freed; a marker is freed with its buffer (R23, R126). -/
def returnQueued (p : Link × Cls × Nat) (s : State) : State :=
  let s1 := leaveQueue p.1 p.2.1 p.2.2 s
  if (s.entry p.2.2).origin = .marker then
    match (s.entry p.2.2).station with
    | some st => freeEntry p.2.2 (dropMarker st s1)
    | none => freeEntry p.2.2 s1
  else nullifyEntry p.2.2 .returned s1

/-- A held entry at the stop (R23). -/
def returnHeld (st : StationId) (i : Nat) (s : State) : State := nullifyEntry i .returned (leaveHold st i s)

/-- The hold list of a station at the stop (R23). -/
def returnHoldList (st : StationId) (s : State) : State := forEach (returnHeld st) (s.station st).holdList s

/-- GAME_ACTIVE at the stop (R63). -/
def stopGame (s : State) : State := { s with game := { active := false, quiet := none } }

/-- STOP in ACTIVE (R168, R175): the mode, the timer, the abandoned count and the device status word, then each
block's stop. DEDUCED, log entry 30: unsafe. DESIGN CHOICE, log entry 18, for the order among the blocks: unsafe. -/
def beginStop (s : State) : State :=
  let s1 := issueDeviceStatus true (setLoader (fun x =>
    { x with mode := .stopping, stopTimer := some (expiryAfter s Config.stopInterval), abandoned := 0 })
    (takeCommand 2 .accepted s))
  let s2 := forEach stopStation allStations (forEach stopLink allLinks (stopGame s1))
  let s3 := { s2 with handoff := { s2.handoff with pendingMarkers := [] }
                      admission := { s2.admission with releases := 0 } }
  let s4 := forEach returnQueued (queuedWhere s3 (fun _ => true)) s3
  testStopEnd (stopImage (forEach returnHoldList allStations s4))

/-- The members of a link's in-flight set, ascending by egress slot (R176). -/
def bySlot : List InFlight → List InFlight
  | [] => []
  | f :: fs => insertBySlot f (bySlot fs)
where
  /-- Insert a member before the first of a higher slot. -/
  insertBySlot (f : InFlight) : List InFlight → List InFlight
    | [] => [f]
    | g :: gs => if f.slot < g.slot then f :: g :: gs else g :: insertBySlot f gs

/-- An entry in flight at the stop timeout: freed without a status write or a charge; a marker's buffer too (R126,
R176). -/
def abandonEntry (l : Link) (f : InFlight) (s : State) : State :=
  let s1 := leaveInFlight l f.slot s
  match (s.entry f.entry).origin, (s.entry f.entry).station with
  | .marker, some st => freeEntry f.entry (dropMarker st s1)
  | _, _ => freeEntry f.entry s1

/-- The entries in flight on a link are abandoned (R176). -/
def abandonInFlight (l : Link) (s : State) : State := forEach (abandonEntry l) (bySlot (s.link l).inFlight) s

/-- The own access is one the stop timeout abandons: an admission read, an answer read or a fill (R176). -/
def isAbandoned : OwnAccess → Bool
  | .admissionRead .. => true
  | .answerRead .. => true
  | .fill .. => true
  | .loadRead _ => false
  | .write .. => false
  | .stationStatus .. => false
  | .updateStatus _ => false
  | .deviceStatus .. => false
  | .producerIndex => false

/-- A granted read the stop timeout abandons. -/
def abandonsRead : ReadOwner → Bool
  | .admission _ => true
  | .answer _ => true
  | .forwarded _ => false
  | .load _ => false

/-- The reads of the part's own not yet granted leave its stream; those granted return their beats to no one; a fill
at the port is given up (R176). DESIGN CHOICE, log entry 24: unsafe. -/
def abandonAccesses (s : State) : State :=
  { s with bus := { s.bus with
      own := s.bus.own.filter (fun i => !isAbandoned i.access)
      outstanding := s.bus.outstanding.map (fun o => if abandonsRead o.owner then { o with live := false } else o)
      port := match s.bus.port with | .fill _ => .idle | .forwardedWrite => .forwardedWrite | .idle => .idle } }

/-- The admission read and the answer of a link are over (R176). -/
def abandonLink (l : Link) (s : State) : State :=
  s.setLink l { s.link l with admissionRead := none, answering := none }

/-- A fill still in progress is abandoned: its buffer is freed and the phase becomes NONE (R176). -/
def abandonFill (st : StationId) (s : State) : State :=
  if (s.station st).markerPhase = .filling then dropMarker st s else s

/-- An egress read that waits on an abandoned answer read is forwarded as a plain read (R176). -/
def forwardAnswering (r : ReadEntry) (s : State) : State :=
  match r.progress with
  | .answering _ => forwardRead r s
  | .forwarded => s
  | .waiting .. => s
  | .ready _ => s

/-- The entries and admission reads the stop timeout abandons (R176). -/
def abandonedNow (s : State) : Nat :=
  (allLinks.map (fun l =>
    (s.link l).inFlight.length + (if (s.link l).admissionRead.isSome then 1 else 0))).sum

/-- The stop timer expires (R176). -/
def stopByTimeout (s : State) : State :=
  let n := abandonedNow s
  let s1 := forEach abandonInFlight allLinks s
  let s2 := forEach abandonFill allStations (abandonAccesses s1)
  let s3 := forEach forwardAnswering s2.bus.reads (forEach abandonLink allLinks s2)
  endStop true (setLoader (fun x => { x with abandoned := n }) s3)

/-- The stop timer expires at this millisecond (R82). -/
def stopTimerDue (s : State) : Bool :=
  decide (s.loader.mode = .stopping) && decide (s.loader.stopTimer = some s.clock.now)

def expireStop (s : State) : State := if stopTimerDue s then stopByTimeout s else s

/-! ### Device commands (R168) -/

/-- A device command with the merged code `c`, by the mode standing; LOADING and STOPPING answer RETRY before this
point. -/
def deviceCommand (c : Nat) (s : State) : State :=
  match s.loader.mode, c with
  | _, 0 => s
  | .transparent, 1 => beginLoad s
  | .active, 2 => beginStop s
  | .transparent, 2 => issueDeviceStatus true (takeCommand 2 .refusedState s)
  | .active, 1 => issueDeviceStatus true (takeCommand 1 .refusedState s)
  | .loading, _ => s
  | .stopping, _ => s
  | _, _ => issueDeviceStatus true (takeCommand c .refusedInvalid s)

end Sys2Proof.Machine
end

