-- ==== Sys2Proof/Machine/Bus.lean ====
section
/-! DEFINITION. The bus path: RETRY, the treatment of an accepted write by its region, reads and their list, the
downstream arbiter, and the returns of granted reads (section 8). -/

namespace Sys2Proof.Machine

open Sys2Proof

/-! ### RETRY (R151, R152) -/

/-- The request is a write. -/
def isForwardedWrite (i : ForwardedItem) : Bool :=
  match i.request with
  | .write .. => true
  | .read .. => false

/-- The occupied write-buffer entries (R151). -/
def writeEntries (s : State) : Nat := (s.bus.forwarded.filter isForwardedWrite).length

/-- Write readiness is given (R151). -/
def writeReady (s : State) : Bool := decide (writeEntries s ≤ 6)

/-- Read readiness is given (R153). -/
def readReady (s : State) : Bool := decide (s.bus.reads.length < Config.readList)

/-- The station has a sweep or drain in progress (R108). -/
def stationBusy (s : State) (st : StationId) : Bool := decide ((s.station st).operation ≠ .idle)

/-- The word is the control word of a busy station (R152). -/
def coversBusy (s : State) (w : WrittenWord) : Bool :=
  decide (policyBase s ≤ w.addr) &&
    match controlWordOf (w.addr - policyBase s) with
    | some st => stationBusy s st
    | none => false

/-- The write is answered RETRY at its issue (R152). DEDUCED, log entry 27: unsafe. -/
def retryDue (s : State) (w : UpWrite) : Bool :=
  decide (Config.writeBuffer ≤ writeEntries s) ||
  match s.loader.mode with
  | .active => (writtenWords w).any (coversBusy s)
  | .transparent => false
  | .loading => (writtenWords w).any (fun x => x.addr = policyBase s)
  | .stopping => (writtenWords w).any (fun x => x.addr = policyBase s)

/-! ### Accepted writes (R154 to R160) -/

/-- A write joins the forwarded stream, taking a write-buffer entry (R151, R162). -/
def forwardWrite (addr : Nat) (beats : List WriteBeat) (s : State) : State :=
  { s with bus := { s.bus with
      forwarded := s.bus.forwarded ++ [⟨s.bus.nextForwarded, .write addr beats⟩]
      nextForwarded := s.bus.nextForwarded + 1 } }

/-- The write is forwarded as it was issued (R150). -/
def forwardAsIssued (w : UpWrite) (s : State) : State := forwardWrite (writeStart w) (forwardedBeats w) s

/-- MEMORY_ERROR for the first error-marked beat of the words the part parses (R160). DEDUCED, log entry 26: unsafe. -/
def reportBad (ws : List WrittenWord) (s : State) : State :=
  match ws.find? (fun x => !x.good) with
  | some x => raise (.memoryErrorBus x.addr) s
  | none => s

/-- The beat of a write that falls on word 7 of its slot; `first` is the word of its first beat. -/
def controlBeat (first : Nat) (w : UpWrite) : Option WrittenWord := (writtenWords w)[7 - first]?

/-- The same, as a list. -/
def controlBeats (first : Nat) (w : UpWrite) : List WrittenWord := (controlBeat first w).toList

/-- STAGING_OVERWRITE for a write to an owned slot (R21, R156). DEDUCED, log entry 25: unsafe. -/
def reportOverwrite (l : Link) (slot first : Nat) (s : State) : State :=
  if slotOwned s l slot then raise (.stagingOverwrite l slot first) s else s

/-- The ready report of a staging write, if it is one (R8, R156). -/
def reportIfReady (l : Link) (slot first : Nat) (w : UpWrite) (s : State) : State :=
  match controlBeat first w with
  | some x => if x.good && isReadyReport x.data x.mask then reportReady l slot s else s
  | none => s

/-- A write accepted in a staging ring (R156, R160). -/
def stagingWrite (l : Link) (slot first : Nat) (w : UpWrite) (s : State) : State :=
  reportIfReady l slot first w
    (reportOverwrite l slot first (reportBad (controlBeats first w) (forwardAsIssued w s)))

/-- The beats of a receive write with word 7 rewritten to FILTERED; `k` is the word of the first beat (R157). -/
def rewriteBeats : Nat → List WriteBeat → List WriteBeat
  | _, [] => []
  | k, b :: bs =>
    (if k = 7 then ⟨{ b.beat with data := filteredWord b.beat.data }, b.mask ||| 0x8⟩ else b) :: rewriteBeats (k + 1) bs

/-- The good word 7 of a receive write in ACTIVE mode is inspected: the write is forwarded, rewritten or not, and the
blocks act on it (R157). -/
def inspectWrite (l : Link) (first : Nat) (x : WrittenWord) (w : UpWrite) (s : State) : State :=
  inspectReceive l x.data x.mask
    (forwardWrite (writeStart w)
      (if filters s x.data x.mask then rewriteBeats first (forwardedBeats w) else forwardedBeats w) s)

/-- A write accepted in a receive ring (R157, R160). -/
def receiveWrite (l : Link) (first : Nat) (w : UpWrite) (s : State) : State :=
  match controlBeat first w with
  | some x =>
    if x.good then
      if s.loader.mode = .active then inspectWrite l first x w s else forwardAsIssued w s
    else reportBad [x] (forwardAsIssued w s)
  | none => forwardAsIssued w s

/-- A write to an egress ring, absorbed: nothing is forwarded (R58, R158, R160, R172). -/
def egressWrite (l : Link) (slot first : Nat) (w : UpWrite) (s : State) : State :=
  match controlBeat first w with
  | some x =>
    if s.loader.mode = .loading then s
    else if x.good then egressControl l slot x.data x.mask s
    else reportBad [x] s
  | none => s

/-- A write accepted in the image area (R136, R159, R160). -/
def imageWrite (w : UpWrite) (s : State) : State :=
  imageBeats (writtenWords w) (reportBad (writtenWords w) (forwardAsIssued w s))

/-! ### Policy area writes (R155, R167) -/

/-- The watched words a policy area write covers, in ascending address order. -/
def watchedWords (s : State) (w : UpWrite) : List WrittenWord :=
  (writtenWords w).filter (fun x => isWatched (x.addr - policyBase s))

/-- A good watched word, by its byte offset in the policy area. -/
structure PolicyWord where
  off : Nat
  data : Word
  mask : Lanes
deriving DecidableEq, Repr

/-- The good watched words of a write, judged beat by beat: a good word is merged and acts whether or not another beat
of its write is error-marked (R66, R84, R129, R160). DEDUCED, log entry 46: unsafe. -/
def goodWords (s : State) (w : UpWrite) : List PolicyWord :=
  ((watchedWords s w).filter (fun x => x.good)).map (fun x => ⟨x.addr - policyBase s, x.data, x.mask⟩)

/-- A word's enabled lanes are merged into its shadow (R155). -/
def mergeShadow (p : PolicyWord) (s : State) : State := { s with shadow := mergeWord s.shadow p.off p.data p.mask }

/-- A write of the clock word, the shadow merged (R84). -/
def clockWordWritten (m : Lanes) (s : State) : State :=
  if isClockSet (shadowWord s 0x008) m then takeClockSet (shadowWord s 0x008) s else s

/-- A write of the consumer index word, the shadow merged (R178). -/
def consumerWordWritten (m : Lanes) (s : State) : State :=
  if lane m 0 || lane m 1 then consumerIndex (bits (shadowWord s 0x140) 0 16) s else s

/-- A write of the coalescing word, the shadow merged: the threshold's lane enabled, the line is tested (R182). -/
def thresholdWordWritten (m : Lanes) (s : State) : State := if lane m 0 then testThreshold s else s

/-- A write of a link's game bucket word, the shadow merged: a lane of B enabled, T is clamped (R33). -/
def burstWordWritten (l : Link) (m : Lanes) (s : State) : State :=
  if lane m 2 || lane m 3 then clampTokens l s else s

/-- A write of the session word, the shadow merged (R129). -/
def sessionWordWritten (m : Lanes) (s : State) : State :=
  if lane m 0 then sessionCommand (sessionField s) s else s

/-- A write of the maintenance index word, the shadow merged (R144). -/
def maintenanceWordWritten (m : Lanes) (s : State) : State := if lane m 0 then noticeGate s else s

/-- A write of the device control word, the shadow merged (R168). -/
def deviceWordWritten (m : Lanes) (s : State) : State :=
  if lane m 0 then deviceCommand (bits (shadowWord s 0x000) 0 8) s else s

/-- What a good watched word does beyond its merge in ACTIVE mode; the device control word and the profiles are
served after every other word of the write (log entry 16). -/
def actActive (p : PolicyWord) (s : State) : State :=
  if p.off = 0x008 then clockWordWritten p.mask s
  else if 0x110 ≤ p.off ∧ p.off < 0x120 then burstWordWritten (linkOf ((p.off - 0x110) / 4)) p.mask s
  else if p.off = 0x138 then thresholdWordWritten p.mask s
  else if p.off = 0x140 then consumerWordWritten p.mask s
  else if p.off = 0x188 then sessionWordWritten p.mask s
  else if p.off = 0x18C then maintenanceWordWritten p.mask s
  else match controlWordOf p.off with
    | some st => commitStation st s
    | none => s

/-- The same in STOPPING: only the threshold test and consumer writes (R154, R178, R182).
DEDUCED, log entry 21: unsafe. -/
def actStopping (p : PolicyWord) (s : State) : State :=
  if p.off = 0x138 then thresholdWordWritten p.mask s
  else if p.off = 0x140 then consumerWordWritten p.mask s
  else s

/-- A good watched word in LOADING: into the load copy; a clock set and a consumer write act directly (R171), on their
words merged into the shadow. DEDUCED, log entry 20: unsafe. R84 has the clock word's merge, R174 the shadows stand as
before a load that fails: the model leaves both merges standing then. DEDUCED, log entry 49: unsafe. -/
def takeLoading (p : PolicyWord) (s : State) : State :=
  let s1 := mergeLoading p.off p.data p.mask s
  if p.off = 0x008 then clockWordWritten p.mask (mergeShadow p s1)
  else if p.off = 0x140 then consumerWordWritten p.mask (mergeShadow p s1)
  else s1

/-- The word lies in the profile region. -/
def inProfiles (p : PolicyWord) : Bool := decide (0x4000 ≤ p.off) && decide (p.off < 0x4400)

/-- The gate notice of a good write to the profile region (R144). -/
def profilesWritten (ps : List PolicyWord) (s : State) : State := if ps.any inProfiles then noticeGate s else s

/-- The device command of a write that covers the device control word, which is always its first beat (R168). -/
def deviceWritten (ps : List PolicyWord) (s : State) : State :=
  match ps.find? (fun p => p.off = 0) with
  | some p => deviceWordWritten p.mask s
  | none => s

/-- The good watched words of a write in ACTIVE mode: all merged, then acted on. DESIGN CHOICE, log entry 16: unsafe. -/
def policyActive (ps : List PolicyWord) (s : State) : State :=
  deviceWritten ps (profilesWritten ps (forEach actActive ps (forEach mergeShadow ps s)))

/-- The good watched words of a write in STOPPING. -/
def policyStopping (ps : List PolicyWord) (s : State) : State := forEach actStopping ps (forEach mergeShadow ps s)

/-- The device control word in TRANSPARENT, the one watched word (R154, R168); no MEMORY_ERROR is raised (R160). -/
def policyTransparent (ps : List PolicyWord) (s : State) : State :=
  let qs := ps.filter (fun p => p.off = 0)
  deviceWritten qs (forEach mergeShadow qs s)

/-- A write accepted in the policy area, by the mode standing (R155). -/
def policyWrite (w : UpWrite) (s : State) : State :=
  let ps := goodWords s w
  let s1 := forwardAsIssued w s
  match s.loader.mode with
  | .transparent => policyTransparent ps s1
  | .loading => forEach takeLoading ps (reportBad (watchedWords s w) s1)
  | .active => policyActive ps (reportBad (watchedWords s w) s1)
  | .stopping => policyStopping ps (reportBad (watchedWords s w) s1)

/-- The treatment of an accepted write by its region (R154). -/
def treatWrite (w : UpWrite) (s : State) : State :=
  match regionOf s (writeStart w) with
  | .plain => forwardAsIssued w s
  | .policy _ => policyWrite w s
  | .staging l slot first => stagingWrite l slot first w s
  | .receive l _ first => receiveWrite l first w s
  | .egress l slot first => egressWrite l slot first w s
  | .image _ => imageWrite w s

/-- An upstream write at its issue: RETRY, or accepted and treated. What is no bus block (R149) is no request, and
nothing is done. DESIGN CHOICE, log entry 11: safe. -/
def upstreamWrite (w : UpWrite) (s : State) : State :=
  if !isBlock w.beats.length then s
  else if retryDue s w then emit .writeRetry s
  else treatWrite w (emit .writeAccepted s)

/-! ### Reads (R39, R153, R154, R158) -/

/-- An egress read waits for the scheduler of the link. -/
def hasWaiting (s : State) (l : Link) : Bool := (oldestWaiting l s.bus.reads).isSome

/-- A classified egress read: answered empty in LOADING, taken by the scheduler, or made to wait for it (R39, R153). -/
def handEgress (l : Link) (e : ReadEntry) (slot first : Nat) (s : State) : State :=
  if s.loader.mode = .loading then answerRead e.id (emptyWords first e.beats) s
  else if (s.link l).answering.isNone && !hasWaiting s l then takeEgress l e ⟨e.id, slot, first, e.beats⟩ s
  else setProgress e.id (.waiting l slot first) s

/-- A read joins the read list with entry `e` and is classified (R153, R154). -/
def classifyRead (e : ReadEntry) (s : State) : State :=
  match regionOf s e.addr with
  | .egress l slot first => handEgress l e slot first s
  | .plain => forwardRead e s
  | .policy _ => forwardRead e s
  | .staging .. => forwardRead e s
  | .receive .. => forwardRead e s
  | .image _ => forwardRead e s

/-- The entry of a read taken now. -/
def readEntry (s : State) (r : UpRead) : ReadEntry :=
  { id := s.bus.nextRead, after := s.bus.nextOwn, addr := blockStart r.addr r.beats, beats := r.beats,
    progress := .forwarded }

/-- A read is taken into the list (R153). -/
def takeRead (r : UpRead) (s : State) : State :=
  classifyRead (readEntry s r)
    { s with bus := { s.bus with reads := s.bus.reads ++ [readEntry s r], nextRead := s.bus.nextRead + 1 } }

/-- An upstream read at its issue: it is taken where read readiness is given and no read waits before it, else it
waits at the port (R153). -/
def issueRead (r : UpRead) (s : State) : State :=
  if !isBlock r.beats then s
  else if readReady s && s.bus.portReads.isEmpty then takeRead r s
  else { s with bus := { s.bus with portReads := s.bus.portReads ++ [r] } }

/-- The first read that waits at the port is taken, where a place is free (R153). -/
def takePortRead (s : State) : State :=
  match s.bus.portReads with
  | r :: rs => if readReady s then takeRead r { s with bus := { s.bus with portReads := rs } } else s
  | [] => s

/-- A read event (R153, R39). DESIGN CHOICE, log entry 13: safe. -/
def upstreamRead (e : ReadEvent) (s : State) : State :=
  match e with
  | .issued r => issueRead r s
  | .fromPort => takePortRead s
  | .byScheduler l => takeNext l s

/-! ### The downstream arbiter (R72, R132, R162, R163, R168) -/

/-- An own access is a write. -/
def isOwnWrite : OwnAccess → Bool
  | .admissionRead .. => false
  | .answerRead .. => false
  | .loadRead _ => false
  | .write .. => true
  | .stationStatus .. => true
  | .updateStatus _ => true
  | .deviceStatus .. => true
  | .producerIndex => true
  | .fill .. => true

/-- The head of the forwarded stream may be granted: a read is held by every own write issued before its acceptance
(R162). -/
def forwardedEligible (s : State) : Bool :=
  match s.bus.forwarded with
  | [] => false
  | i :: _ =>
    match i.request with
    | .write .. => true
    | .read _ _ _ after => !s.bus.own.any (fun o => isOwnWrite o.access && decide (o.number < after))

/-- The head of the own stream may be granted: a read is held by every write accepted before its issue (R162). -/
def ownEligible (s : State) : Bool :=
  match s.bus.own with
  | [] => false
  | o :: _ => isOwnWrite o.access || !s.bus.forwarded.any (fun i => isForwardedWrite i && decide (i.number < o.after))

/-- The stream the arbiter grants: the one it did not grant last where both heads are eligible (R163). -/
def granted (s : State) : Option Stream :=
  match s.bus.port with
  | .idle =>
    match forwardedEligible s, ownEligible s with
    | true, true => some (if s.bus.lastGranted = .own then .forwarded else .own)
    | true, false => some .forwarded
    | false, true => some .own
    | false, false => none
  | .forwardedWrite => none
  | .fill _ => none

/-- A read request goes downstream (R163). -/
def readDownstream (o : ReadOwner) (addr n : Nat) (s : State) : State :=
  emit (.downstreamRead addr n)
    { s with bus := { s.bus with outstanding := s.bus.outstanding ++ [⟨o, n, true⟩] } }

/-- A write goes downstream. -/
def writeDownstream (addr : Nat) (beats : List WriteBeat) (s : State) : State := emit (.downstreamWrite addr beats) s

/-- A grant of the head of the forwarded stream: a write keeps its entry until its last beat is taken (R151). -/
def grantForwarded (s : State) : State :=
  match s.bus.forwarded with
  | [] => s
  | i :: is =>
    match i.request with
    | .write addr beats =>
      writeDownstream addr beats { s with bus := { s.bus with port := .forwardedWrite, lastGranted := .forwarded } }
    | .read id addr n _ =>
      readDownstream (.forwarded id) addr n
        { s with bus := { s.bus with forwarded := is, lastGranted := .forwarded } }

/-- A NONE write of the lane 0 of a word, issued now (R72, R132, R168). -/
def issueNone (addr : Nat) (s : State) : State := issueLanes addr 0x1 0 s

/-- `n` NONE writes of a word. -/
def issueNones (addr : Nat) : Nat → State → State
  | 0, s => s
  | n + 1, s => issueNones addr n (issueNone addr s)

/-- The byte address of a station's record. -/
def recordAddress (s : State) (st : StationId) : Nat := policyBase s + 0x2000 + 64 * st.val

/-- An own access goes downstream, with the values standing at the grant for the write-backs of R73, R132 and R180;
the NONE writes that follow a write-back are issued once it is taken (R72, R132, R168). -/
def performOwn (a : OwnAccess) (s : State) : State :=
  match a with
  | .admissionRead l addr => readDownstream (.admission l) addr 8 s
  | .answerRead l addr => readDownstream (.answer l) addr 8 s
  | .loadRead off => readDownstream (.load off) (policyBase s + off) 8 s
  | .write addr beats => writeDownstream addr beats s
  | .stationStatus st n =>
    issueNones (recordAddress s st + 60) n
      (writeDownstream (recordAddress s st + 32) (ownBeats (stationStatusWords (s.station st))) s)
  | .updateStatus n =>
    issueNones (policyBase s + 0x188) n
      (writeDownstream (policyBase s + 0x190) (ownBeats [updateStatusWord s]) s)
  | .deviceStatus w thenNone =>
    issueNones (policyBase s) (if thenNone then 1 else 0)
      (writeDownstream (policyBase s + 0x004) (ownBeats [w]) s)
  | .producerIndex => writeDownstream (policyBase s + 0x13C) (ownBeats [word s.events.producer]) s
  | .fill st addr beats =>
    writeDownstream addr beats { s with bus := { s.bus with port := .fill st } }

/-- A grant of the head of the own stream. -/
def grantOwn (s : State) : State :=
  match s.bus.own with
  | [] => s
  | o :: os => performOwn o.access { s with bus := { s.bus with own := os, lastGranted := .own } }

/-- One grant of the downstream arbiter (R163). -/
def grantNext (s : State) : State :=
  match granted s with
  | some .forwarded => grantForwarded s
  | some .own => grantOwn s
  | none => s

/-- The downstream port takes the last beat of the granted write: its entry frees (R151). -/
def freeWriteEntry (s : State) : State :=
  if s.bus.port = .forwardedWrite then
    { s with bus := { s.bus with port := .idle, forwarded := s.bus.forwarded.tail } }
  else s

/-! ### Returns of granted reads (R163, R164) -/

/-- The read whose beats return next, if it is one that `p` accepts and asked for that many beats. -/
def returning (p : ReadOwner → Bool) (n : Nat) (s : State) : Option Outstanding :=
  s.bus.outstanding.head?.filter (fun o => p o.owner && decide (o.beats = n))

/-- The read whose beats have returned is no longer outstanding. -/
def dropOutstanding (s : State) : State := { s with bus := { s.bus with outstanding := s.bus.outstanding.tail } }

def isForwardedOwner : ReadOwner → Bool
  | .forwarded _ => true
  | .admission _ => false | .answer _ => false | .load _ => false

def isAdmissionOwner : ReadOwner → Bool
  | .admission _ => true
  | .forwarded _ => false | .answer _ => false | .load _ => false

def isAnswerOwner : ReadOwner → Bool
  | .answer _ => true
  | .forwarded _ => false | .admission _ => false | .load _ => false

def isLoadOwner : ReadOwner → Bool
  | .load _ => true
  | .forwarded _ => false | .admission _ => false | .answer _ => false

/-- An admission read of link `l` that returned with an error-marked beat (R11): the status write, then MEMORY_ERROR.
DESIGN CHOICE, log entry 18, for that order: unsafe. -/
def failAdmission (l : Link) (slot : Nat) (s : State) : State :=
  testStopEnd (advanceCursor l (raise (.memoryErrorAdmission l slot) (writeSlotStatus l slot .memoryError s)))

/-- The descriptor of the cursor slot is in: it is classified, or the link stalls (R12, R19). -/
def admitOrStall (l : Link) (slot : Nat) (d : List Word) (s : State) : State :=
  match freeHead s with
  | some i => advanceCursor l (classify i l slot d s).1
  | none => enterStall l d s

/-- An admission read of link `l` returned good, by the mode standing (R10, R12, R23). DEDUCED, log entry 28: unsafe. -/
def admitReturned (l : Link) (slot : Nat) (d : List Word) (s : State) : State :=
  match s.loader.mode with
  | .active => admitOrStall l slot d s
  | .stopping => testStopEnd (advanceCursor l (writeSlotStatus l slot .returned s))
  | .transparent => s
  | .loading => s

/-- The beats of an admission read of link `l` (R10 to R12). -/
def returnAdmission (l : Link) (beats : List Beat) (s : State) : State :=
  match (s.link l).admissionRead with
  | some slot =>
    let s1 := s.setLink l { s.link l with admissionRead := none }
    if beats.all (fun b => b.good) then admitReturned l slot (beats.map (fun b => b.data)) s1
    else failAdmission l slot s1
  | none => s

/-- The owner of a returned read takes its beats (R163). -/
def takeReturn (o : ReadOwner) (beats : List Beat) (s : State) : State :=
  match o with
  | .forwarded id => completeRead id (beats.map (fun b => { b with response := true })) s
  | .admission l => returnAdmission l beats s
  | .answer l => returnAnswer l beats s
  | .load off => returnLoad off beats s

/-- Beats return for the oldest outstanding read: its owner takes them, or no one where the owner has given it up.
Beats that no outstanding read awaits do not occur, and nothing is done. DESIGN CHOICE, log entry 12: safe. -/
def returnBeats (p : ReadOwner → Bool) (beats : List Beat) (s : State) : State :=
  match returning p beats.length s with
  | some o => if o.live then takeReturn o.owner beats (dropOutstanding s) else dropOutstanding s
  | none => s

/-! ### The end of a marker fill (R120) -/

/-- The downstream port takes the last beat of a fill. No run brings a fill into TRANSPARENT or LOADING (R126, R176):
there the port only becomes idle. DESIGN CHOICE, log entry 36: safe. -/
def endFill (s : State) : State :=
  match s.bus.port with
  | .fill st =>
    let s1 := { s with bus := { s.bus with port := .idle } }
    match s.loader.mode with
    | .active => endFillActive st s1
    | .stopping => testStopEnd (dropMarker st s1)
    | .transparent => s1
    | .loading => s1
  | .idle => s
  | .forwardedWrite => s

end Sys2Proof.Machine
end

