-- ==== Sys2Proof/Machine/Commits.lean ====
section
/-! DEFINITION. The commands of the station table: writes of a station control word. What such a write does follows
from the merged record and the station, not from the row's name (R67 to R72, R100). -/

namespace Sys2Proof.Machine

open Sys2Proof

/-- COMMIT (R67, R68, R72). -/
def execCommit (w : UpWrite) (s : State) : Host.Outcome State Fault Refusal := .next (upstreamWrite w (start s))

/-- VALIDATE (R70, R72). -/
def execValidate (w : UpWrite) (s : State) : Host.Outcome State Fault Refusal := .next (upstreamWrite w (start s))

/-- INVALIDATE (R71, R72). -/
def execInvalidate (w : UpWrite) (s : State) : Host.Outcome State Fault Refusal := .next (upstreamWrite w (start s))

/-- DEPART (R69, R100, R102). -/
def execDepart (w : UpWrite) (s : State) : Host.Outcome State Fault Refusal := .next (upstreamWrite w (start s))

/-- EVICT (R69, R100, R109, R110). -/
def execEvict (w : UpWrite) (s : State) : Host.Outcome State Fault Refusal := .next (upstreamWrite w (start s))

/-- FORWARD (R69, R100, R110). -/
def execForward (w : UpWrite) (s : State) : Host.Outcome State Fault Refusal := .next (upstreamWrite w (start s))

/-- ABORT (R69, R100, R110, R111, R113). -/
def execAbort (w : UpWrite) (s : State) : Host.Outcome State Fault Refusal := .next (upstreamWrite w (start s))

/-- RELEASE (R69, R100, R111). -/
def execRelease (w : UpWrite) (s : State) : Host.Outcome State Fault Refusal := .next (upstreamWrite w (start s))

/-- ARRIVE (R69, R100, R112). -/
def execArrive (w : UpWrite) (s : State) : Host.Outcome State Fault Refusal := .next (upstreamWrite w (start s))

/-- ADOPT (R69, R100, R112, R113). -/
def execAdopt (w : UpWrite) (s : State) : Host.Outcome State Fault Refusal := .next (upstreamWrite w (start s))

end Sys2Proof.Machine
end

