-- ==== Sys2Proof/Machine/Control.lean ====
section
/-! DEFINITION. The commands of the remaining watched words: the clock word, the profiles, the update control block,
the live parameters, the consumer index and the image area. -/

namespace Sys2Proof.Machine

open Sys2Proof

/-- CLOCK_SET (R84, R93). -/
def execClockSet (w : UpWrite) (s : State) : Host.Outcome State Fault Refusal := .next (upstreamWrite w (start s))

/-- PROFILE_WRITE (R85, R144). -/
def execProfileWrite (w : UpWrite) (s : State) : Host.Outcome State Fault Refusal := .next (upstreamWrite w (start s))

/-- SESSION_OPEN (R129, R130). -/
def execSessionOpen (w : UpWrite) (s : State) : Host.Outcome State Fault Refusal := .next (upstreamWrite w (start s))

/-- SESSION_CLOSE (R129, R131). -/
def execSessionClose (w : UpWrite) (s : State) : Host.Outcome State Fault Refusal := .next (upstreamWrite w (start s))

/-- SESSION_COMMAND_NONE (R129). -/
def execSessionCommandNone (w : UpWrite) (s : State) : Host.Outcome State Fault Refusal :=
  .next (upstreamWrite w (start s))

/-- SESSION_COMMAND_UNKNOWN (R129). -/
def execSessionCommandUnknown (w : UpWrite) (s : State) : Host.Outcome State Fault Refusal :=
  .next (upstreamWrite w (start s))

/-- MAINTENANCE_INDEX_WRITE (R144, R146). -/
def execMaintenanceIndexWrite (w : UpWrite) (s : State) : Host.Outcome State Fault Refusal :=
  .next (upstreamWrite w (start s))

/-- GAME_BURST_WRITE (R33). -/
def execGameBurstWrite (w : UpWrite) (s : State) : Host.Outcome State Fault Refusal :=
  .next (upstreamWrite w (start s))

/-- COALESCING_THRESHOLD_WRITE (R182). -/
def execCoalescingThresholdWrite (w : UpWrite) (s : State) : Host.Outcome State Fault Refusal :=
  .next (upstreamWrite w (start s))

/-- CONSUMER_WRITE (R178, R181, R183). -/
def execConsumerWrite (w : UpWrite) (s : State) : Host.Outcome State Fault Refusal := .next (upstreamWrite w (start s))

/-- IMAGE_WRITE (R136 to R142, R159). -/
def execImageWrite (w : UpWrite) (s : State) : Host.Outcome State Fault Refusal := .next (upstreamWrite w (start s))

end Sys2Proof.Machine
end

