-- ==== Sys2Proof/Machine/Device.lean ====
section
/-! DEFINITION. The commands of the loader: writes of the device control word and the return of a load read
(R168 to R175). -/

namespace Sys2Proof.Machine

open Sys2Proof

/-- RUN: the write is taken by its mode and lanes; in TRANSPARENT it begins a load (R168, R169). -/
def execRun (w : UpWrite) (s : State) : Host.Outcome State Fault Refusal := .next (upstreamWrite w (start s))

/-- STOP: in ACTIVE it begins the stop (R168, R175). -/
def execStop (w : UpWrite) (s : State) : Host.Outcome State Fault Refusal := .next (upstreamWrite w (start s))

/-- DEVICE_COMMAND_NONE: merged, and nothing is done (R168). -/
def execDeviceCommandNone (w : UpWrite) (s : State) : Host.Outcome State Fault Refusal :=
  .next (upstreamWrite w (start s))

/-- DEVICE_COMMAND_UNKNOWN: refused with REFUSED_INVALID (R168). -/
def execDeviceCommandUnknown (w : UpWrite) (s : State) : Host.Outcome State Fault Refusal :=
  .next (upstreamWrite w (start s))

/-- LOAD_READ_RETURN (R169 to R174). -/
def execLoadReadReturn (beats : List Beat) (s : State) : Host.Outcome State Fault Refusal :=
  .next (returnBeats isLoadOwner beats (start s))

end Sys2Proof.Machine
end

