-- ==== Sys2Proof/Machine/Staging.lean ====
section
/-! DEFINITION. The commands of admission: staging writes, admission reads and the service of stalls (R8 to R22). -/

namespace Sys2Proof.Machine

open Sys2Proof

/-- No outputs stand. A service row serves what is due itself, so it does not begin with `start`. -/
def quietPorts (s : State) : State := { s with out := [] }

/-- READY_REPORT (R8, R156). -/
def execReadyReport (w : UpWrite) (s : State) : Host.Outcome State Fault Refusal := .next (upstreamWrite w (start s))

/-- STAGING_WRITE (R21, R156). -/
def execStagingWrite (w : UpWrite) (s : State) : Host.Outcome State Fault Refusal := .next (upstreamWrite w (start s))

/-- ADMISSION_READ_ISSUE (R10): the read is issued at this command, not at the act after which R10's conditions first
hold. DESIGN CHOICE, log entry 45: unsafe. -/
def execAdmissionReadIssue (l : Link) (s : State) : Host.Outcome State Fault Refusal :=
  .next (issueAdmission l (start s))

/-- ADMISSION_READ_RETURN (R11, R12, R19, R23). -/
def execAdmissionReadReturn (beats : List Beat) (s : State) : Host.Outcome State Fault Refusal :=
  .next (returnBeats isAdmissionOwner beats (start s))

/-- STALL_SERVED: one service of a stalled link, where one is due (R20). -/
def execStallServed (s : State) : Host.Outcome State Fault Refusal :=
  .next (if stallServiceDue (quietPorts s) then serveStallDue (quietPorts s) else quietPorts s)

end Sys2Proof.Machine
end

