-- ==== Sys2Proof/Machine/Moves.lean ====
section
/-! DEFINITION. The commands of the handoff controller that software does not send: sweep and drain steps and the
steps of a marker (R103 to R107, R119 to R121). -/

namespace Sys2Proof.Machine

open Sys2Proof

/-- SWEEP_STEP (R103 to R105). -/
def execSweepStep (st : StationId) (s : State) : Host.Outcome State Fault Refusal :=
  .next (takeSweepStep st (start s))

/-- DRAIN_STEP (R106, R107, R114, R115). -/
def execDrainStep (st : StationId) (s : State) : Host.Outcome State Fault Refusal :=
  .next (takeDrainStep st (start s))

/-- MARKER_FILL_END (R120, R126). -/
def execMarkerFillEnd (s : State) : Host.Outcome State Fault Refusal := .next (endFill (start s))

/-- MARKER_BUFFER_SERVED: one service of a freed buffer, where one is due (R119). -/
def execMarkerBufferServed (s : State) : Host.Outcome State Fault Refusal :=
  .next (if bufferServiceDue (quietPorts s) then serveBuffer (quietPorts s) else quietPorts s)

/-- MARKER_ENTRY_SERVED: one service of a station in WAIT_ENTRY, where one is due (R20, R120). -/
def execMarkerEntryServed (s : State) : Host.Outcome State Fault Refusal :=
  .next (if markerServiceDue (quietPorts s) then settleReleases (serveMarkerEntry (quietPorts s)) else quietPorts s)

end Sys2Proof.Machine
end

