-- ==== Sys2Proof/Machine/Port.lean ====
section
/-! DEFINITION. The commands of the two ports: RETRY, writes with no row of their own, the freeing of write-buffer
entries, grants, and the return of forwarded reads (R151 to R155, R163). -/

namespace Sys2Proof.Machine

open Sys2Proof

/-- WRITE_RETRY: the write meets a RETRY condition at its issue and is not accepted (R152). -/
def execWriteRetry (w : UpWrite) (s : State) : Host.Outcome State Fault Refusal := .next (upstreamWrite w (start s))

/-- WATCHED_WRITE: an accepted write with no row of its own is forwarded and merged (R154, R155). -/
def execWatchedWrite (w : UpWrite) (s : State) : Host.Outcome State Fault Refusal := .next (upstreamWrite w (start s))

/-- WRITE_ENTRY_FREED (R151). -/
def execWriteEntryFreed (s : State) : Host.Outcome State Fault Refusal := .next (freeWriteEntry (start s))

/-- DOWNSTREAM_GRANT (R163). -/
def execDownstreamGrant (s : State) : Host.Outcome State Fault Refusal := .next (grantNext (start s))

/-- FORWARDED_READ_RETURN (R150, R153, R164). -/
def execForwardedReadReturn (beats : List Beat) (s : State) : Host.Outcome State Fault Refusal :=
  .next (returnBeats isForwardedOwner beats (start s))

end Sys2Proof.Machine
end

