-- ==== Sys2Proof/Machine/Scheduling.lean ====
section
/-! DEFINITION. The commands of the rings the link DMA engines use: egress reads, answers, egress writes and receive
control words (R39 to R64, R157). -/

namespace Sys2Proof.Machine

open Sys2Proof

/-- EGRESS_READ: an upstream read is issued, leaves the port, or is taken by its scheduler (R39, R40, R153). -/
def execEgressRead (e : ReadEvent) (s : State) : Host.Outcome State Fault Refusal := .next (upstreamRead e (start s))

/-- ANSWER_READ_RETURN (R51, R53). -/
def execAnswerReadReturn (beats : List Beat) (s : State) : Host.Outcome State Fault Refusal :=
  .next (returnBeats isAnswerOwner beats (start s))

/-- EGRESS_WRITE (R58 to R61, R158). -/
def execEgressWrite (w : UpWrite) (s : State) : Host.Outcome State Fault Refusal := .next (upstreamWrite w (start s))

/-- RECEIVE_CONTROL_WRITE (R75 to R79, R96, R123, R157). -/
def execReceiveControlWrite (w : UpWrite) (s : State) : Host.Outcome State Fault Refusal :=
  .next (upstreamWrite w (start s))

end Sys2Proof.Machine
end

