-- ==== Sys2Proof/Machine/Time.lean ====
section
/-! DEFINITION. The commands of time and of the reset input: RESET_INPUT, MILLISECOND and the expiries and boundaries
a millisecond event brings (R63, R81 to R83, R91, R110, R111, R113, R176, R177, R182). -/

namespace Sys2Proof.Machine

open Sys2Proof

/-- The station's timer, of whatever kind, where it expires at this millisecond (R117). -/
def expireStation (st : StationId) (s : State) : State := expireArrival st (expireForward st (expireHold st s))

/-- What the standing millisecond event still has to bring, taken before the next one: the minute boundary, the timer
expiries and the coalescing test (R81, R82). DESIGN CHOICE, log entry 7: unsafe. -/
def finishMillisecond (s : State) : State :=
  testCoalescing (expireStop (forEach expireStation allStations (expireQuiet (minuteBoundary s))))

/-- A millisecond event: the time base and the sub-second count rise, and in ACTIVE mode the game buckets are refilled
(R34, R81, R83). -/
def passMillisecond (s : State) : State := refill (advanceClock s)

/-- A read granted before the reset input returns its beats to no one (R165). -/
def abandonOutstanding (o : Outstanding) : Outstanding := { o with live := false }

/-- RESET_INPUT (R24, R38, R64, R80, R98, R127, R148, R165, R177, R184), with the strap value sampled (R166).
DESIGN CHOICE, log entry 31: safe. -/
def execResetInput (plc : BitVec 3) (s : State) : Host.Outcome State Fault Refusal :=
  .next (State.afterReset plc s.pending (s.bus.outstanding.map abandonOutstanding))

/-- MILLISECOND (R81). -/
def execMillisecond (s : State) : Host.Outcome State Fault Refusal :=
  .next (passMillisecond (finishMillisecond (start s)))

/-- MINUTE_BOUNDARY (R83, R91). -/
def execMinuteBoundary (s : State) : Host.Outcome State Fault Refusal := .next (minuteBoundary (start s))

/-- QUIET_TIMER_EXPIRY (R63). -/
def execQuietTimerExpiry (s : State) : Host.Outcome State Fault Refusal := .next (expireQuiet (start s))

/-- HOLD_TIMER_EXPIRY (R110). -/
def execHoldTimerExpiry (st : StationId) (s : State) : Host.Outcome State Fault Refusal :=
  .next (expireHold st (start s))

/-- FORWARD_TIMER_EXPIRY (R111). -/
def execForwardTimerExpiry (st : StationId) (s : State) : Host.Outcome State Fault Refusal :=
  .next (expireForward st (start s))

/-- ARRIVAL_TIMER_EXPIRY (R113). -/
def execArrivalTimerExpiry (st : StationId) (s : State) : Host.Outcome State Fault Refusal :=
  .next (expireArrival st (start s))

/-- STOP_TIMEOUT (R176). -/
def execStopTimeout (s : State) : Host.Outcome State Fault Refusal := .next (expireStop (start s))

/-- COALESCING_TIMEOUT (R182). -/
def execCoalescingTimeout (s : State) : Host.Outcome State Fault Refusal := .next (testCoalescing (start s))

end Sys2Proof.Machine
end

