-- ==== Sys2Proof/Machine/Dispatch.lean ====
section
/-! DEFINITION. The meaning of every command: one arm for each constructor of `Instr`. -/

namespace Sys2Proof.Machine

open Sys2Proof

/-- What a command does to everything but the queue of waiting commands. -/
def exec (i : Instr) (s : State) : Host.Outcome State Fault Refusal :=
  match i with
  | .resetInput plc => Sys2Proof.Machine.execResetInput plc s
  | .millisecond => Sys2Proof.Machine.execMillisecond s
  | .minuteBoundary => Sys2Proof.Machine.execMinuteBoundary s
  | .quietTimerExpiry => Sys2Proof.Machine.execQuietTimerExpiry s
  | .holdTimerExpiry st => Sys2Proof.Machine.execHoldTimerExpiry st s
  | .forwardTimerExpiry st => Sys2Proof.Machine.execForwardTimerExpiry st s
  | .arrivalTimerExpiry st => Sys2Proof.Machine.execArrivalTimerExpiry st s
  | .stopTimeout => Sys2Proof.Machine.execStopTimeout s
  | .coalescingTimeout => Sys2Proof.Machine.execCoalescingTimeout s
  | .run w => Sys2Proof.Machine.execRun w s
  | .stop w => Sys2Proof.Machine.execStop w s
  | .deviceCommandNone w => Sys2Proof.Machine.execDeviceCommandNone w s
  | .deviceCommandUnknown w => Sys2Proof.Machine.execDeviceCommandUnknown w s
  | .writeRetry w => Sys2Proof.Machine.execWriteRetry w s
  | .watchedWrite w => Sys2Proof.Machine.execWatchedWrite w s
  | .writeEntryFreed => Sys2Proof.Machine.execWriteEntryFreed s
  | .downstreamGrant => Sys2Proof.Machine.execDownstreamGrant s
  | .forwardedReadReturn beats => Sys2Proof.Machine.execForwardedReadReturn beats s
  | .readyReport w => Sys2Proof.Machine.execReadyReport w s
  | .stagingWrite w => Sys2Proof.Machine.execStagingWrite w s
  | .admissionReadIssue l => Sys2Proof.Machine.execAdmissionReadIssue l s
  | .admissionReadReturn beats => Sys2Proof.Machine.execAdmissionReadReturn beats s
  | .stallServed => Sys2Proof.Machine.execStallServed s
  | .egressRead e => Sys2Proof.Machine.execEgressRead e s
  | .answerReadReturn beats => Sys2Proof.Machine.execAnswerReadReturn beats s
  | .egressWrite w => Sys2Proof.Machine.execEgressWrite w s
  | .receiveControlWrite w => Sys2Proof.Machine.execReceiveControlWrite w s
  | .commit w => Sys2Proof.Machine.execCommit w s
  | .validate w => Sys2Proof.Machine.execValidate w s
  | .invalidate w => Sys2Proof.Machine.execInvalidate w s
  | .depart w => Sys2Proof.Machine.execDepart w s
  | .evict w => Sys2Proof.Machine.execEvict w s
  | .forward w => Sys2Proof.Machine.execForward w s
  | .abort w => Sys2Proof.Machine.execAbort w s
  | .release w => Sys2Proof.Machine.execRelease w s
  | .arrive w => Sys2Proof.Machine.execArrive w s
  | .adopt w => Sys2Proof.Machine.execAdopt w s
  | .sweepStep st => Sys2Proof.Machine.execSweepStep st s
  | .drainStep st => Sys2Proof.Machine.execDrainStep st s
  | .markerFillEnd => Sys2Proof.Machine.execMarkerFillEnd s
  | .markerBufferServed => Sys2Proof.Machine.execMarkerBufferServed s
  | .markerEntryServed => Sys2Proof.Machine.execMarkerEntryServed s
  | .clockSet w => Sys2Proof.Machine.execClockSet w s
  | .profileWrite w => Sys2Proof.Machine.execProfileWrite w s
  | .sessionOpen w => Sys2Proof.Machine.execSessionOpen w s
  | .sessionClose w => Sys2Proof.Machine.execSessionClose w s
  | .sessionCommandNone w => Sys2Proof.Machine.execSessionCommandNone w s
  | .sessionCommandUnknown w => Sys2Proof.Machine.execSessionCommandUnknown w s
  | .maintenanceIndexWrite w => Sys2Proof.Machine.execMaintenanceIndexWrite w s
  | .gameBurstWrite w => Sys2Proof.Machine.execGameBurstWrite w s
  | .coalescingThresholdWrite w => Sys2Proof.Machine.execCoalescingThresholdWrite w s
  | .consumerWrite w => Sys2Proof.Machine.execConsumerWrite w s
  | .imageWrite w => Sys2Proof.Machine.execImageWrite w s
  | .loadReadReturn beats => Sys2Proof.Machine.execLoadReadReturn beats s

end Sys2Proof.Machine
end

