-- ==== Sys2Proof/Safety.lean ====
section
/-! DEFINITION. The terms the statements use: an accepted write and what it has done before its words act, and the
laws of a safe run, which every step keeps. -/

namespace Sys2Proof.Machine

open Sys2Proof

/-! ### Accepted writes -/

/-- The write is a bus block and meets no RETRY condition at its issue (R149, R152). -/
def Accepts (u : State) (w : UpWrite) : Prop := isBlock w.beats.length = true ∧ retryDue u w = false

/-- The write falls in the policy area, or on the device control word in TRANSPARENT (R154). -/
def InPolicy (u : State) (w : UpWrite) : Prop := ∃ off, regionOf u (writeStart w) = .policy off

/-- The write is accepted in the policy area, and `p` is one of its good watched words (R155, R160). -/
def Carries (u : State) (w : UpWrite) (p : PolicyWord) : Prop := Accepts u w ∧ InPolicy u w ∧ p ∈ goodWords u w

/-- The write is accepted and forwarded as it was issued (R150, R151, R154). -/
def forwarded (u : State) (w : UpWrite) : State := forwardAsIssued w (emit .writeAccepted u)

/-- What a write to the policy area has done before its words act: it is accepted and forwarded, its error-marked
watched beat is reported, and its good words are merged (R155, R160). -/
def merged (u : State) (w : UpWrite) : State :=
  forEach mergeShadow (goodWords u w) (reportBad (watchedWords u w) (forwarded u w))

/-- A word of the policy area that has no act beyond its merge in ACTIVE mode (R155). -/
def inert (p : PolicyWord) : Bool :=
  !(decide (p.off = 0x000)) && !(decide (p.off = 0x008)) && !(decide (0x110 ≤ p.off) && decide (p.off < 0x120)) &&
  !(decide (p.off = 0x138)) && !(decide (p.off = 0x140)) && !(decide (p.off = 0x188)) && !(decide (p.off = 0x18C)) &&
  !(inProfiles p) && (controlWordOf p.off).isNone

/-! ### The checks of a load (R170, 11.3) -/

/-- `n` is the number of a ring area: 4l staging, 4l + 1 egress, 4l + 2 receive of link l. In rising number they stand
in the order of the checks. -/
def IsRing (n : Nat) : Prop := n < 16 ∧ n % 4 ≠ 3

/-- `n` is the number of an area the load forms; 16 is the image area, which a capacity of 0 does not form. -/
def IsArea (m : RegionMap) (n : Nat) : Prop := IsRing n ∨ (n = 16 ∧ m.capacity ≠ 0)

/-- The slots of a ring area. -/
def areaSlots (m : RegionMap) (n : Nat) : Nat :=
  let c := m.links.get (linkOf (n / 4))
  match n % 4 with
  | 0 => c.stagingSize
  | 1 => c.egressSize
  | _ => c.receiveSize

/-- The start slot of a staging or egress ring. -/
def areaStart (m : RegionMap) (n : Nat) : Nat :=
  let c := m.links.get (linkOf (n / 4))
  match n % 4 with
  | 0 => c.stagingStart
  | _ => c.egressStart

/-- The base of an area. -/
def areaBase (m : RegionMap) (n : Nat) : Nat :=
  let c := m.links.get (linkOf (n / 4))
  if n = 16 then m.imageBase
  else match n % 4 with
    | 0 => c.stagingBase
    | 1 => c.egressBase
    | _ => c.receiveBase

/-- The size of an area in bytes. -/
def areaBytes (m : RegionMap) (n : Nat) : Nat := if n = 16 then 1024 * m.capacity else 32 * areaSlots m n

/-- Two spans of bytes share a byte. -/
def ShareByte (b1 n1 b2 n2 : Nat) : Prop := ∃ a, b1 ≤ a ∧ a < b1 + n1 ∧ b2 ≤ a ∧ a < b2 + n2

/-- `n` is the first area that meets `P`. -/
def FirstArea (P : Nat → Prop) (n : Nat) : Prop := P n ∧ ∀ k, P k → n ≤ k

/-- Areas `a` and `n`, `a` the earlier, share a byte. -/
def PairMeets (m : RegionMap) (a n : Nat) : Prop :=
  a < n ∧ IsArea m a ∧ IsArea m n ∧ ShareByte (areaBase m a) (areaBytes m a) (areaBase m n) (areaBytes m n)

/-- The table of R170: each check with what makes `n` the subject of its failure. OVERLAP is taken with the policy
area first and then pair by pair, by the earlier area of a pair first. DEDUCED, log entry 23: unsafe. -/
def loadTable (policy : Nat) (m : RegionMap) : List (LoadReason × (Nat → Prop)) :=
  [ (.ringSize, FirstArea (fun n => IsRing n ∧
      ¬ ∃ k, 4 ≤ k ∧ k ≤ (if n % 4 = 1 then 8 else 10) ∧ areaSlots m n = 2 ^ k)),
    (.imageSize, fun n => n = 16 ∧ 4096 < m.capacity),
    (.ringAlign, FirstArea (fun n => IsRing n ∧ areaBase m n % areaBytes m n ≠ 0)),
    (.imageAlign, fun n => n = 16 ∧ m.capacity ≠ 0 ∧ m.imageBase % 1024 ≠ 0),
    (.startSlot, FirstArea (fun n => IsRing n ∧ n % 4 ≠ 2 ∧ areaSlots m n ≤ areaStart m n)),
    (.range, FirstArea (fun n => IsArea m n ∧ 0x3FFFFFF < areaBase m n + areaBytes m n - 1)),
    (.overlap, FirstArea (fun n => IsArea m n ∧ ShareByte policy 0x40000 (areaBase m n) (areaBytes m n))),
    (.overlap, fun n => ∃ a, PairMeets m a n ∧ ∀ b k, PairMeets m b k → a < b ∨ (a = b ∧ n ≤ k)) ]

/-! ### The clocks (R81, R83) -/

/-- The week clock and the millisecond group stay in their ranges, and a boundary is due only at the last millisecond
of a minute. -/
def ClockLaw (s : State) : Prop :=
  s.clock.minute ≤ 10079 ∧ s.clock.second ≤ 59 ∧ s.clock.subSecond ≤ 999 ∧ s.clock.inGroup < 125 ∧
    (s.clock.boundaryDue = true → s.clock.second = 59 ∧ s.clock.subSecond = 999)

/-! ### The event ring (R178, R181) -/

/-- The records stand one after the other from index `c` to index `p`, each of one or two units. -/
def RecordsSpan : Nat → List EventRecord → Nat → Prop
  | c, [], p => c = p
  | c, r :: rs, p => r.index = c ∧ (r.length = 1 ∨ r.length = 2) ∧
      RecordsSpan ((c + r.length) % Config.indexSpan) rs p

/-- The unconsumed records fill the ring from C to P and never more than its 512 units; the missed mask is empty
exactly when the missed count is 0. -/
def RingLaw (s : State) : Prop :=
  s.events.consumer < Config.indexSpan ∧ s.events.producer < Config.indexSpan ∧
    RecordsSpan s.events.consumer s.events.records s.events.producer ∧
    unconsumed s.events = (s.events.records.map EventRecord.length).sum ∧
    unconsumed s.events ≤ Config.ringUnits ∧
    s.events.missedCount ≤ 65535 ∧ (s.events.missed = 0 ↔ s.events.missedCount = 0)

/-! ### Airtime (R32, R33, R35, R38) -/

/-- Every class credit and every game token count stays in its range. In ACTIVE mode the tokens of a link never stand
above the burst B that its word holds; in TRANSPARENT and LOADING every credit and token count is 0. -/
def AirtimeLaw (s : State) : Prop :=
  ∀ l : Link, (∀ c : Cls, -65536 ≤ (s.link l).credits.get c ∧ (s.link l).credits.get c ≤ 65535) ∧
    (-65535 ≤ (s.link l).tokens ∧ (s.link l).tokens ≤ 65535) ∧
    (s.loader.mode = .active → (s.link l).tokens ≤ bits (shadowWord s (0x110 + 4 * linkNumber l)) 16 16) ∧
    (s.loader.mode = .transparent ∨ s.loader.mode = .loading →
      (s.link l).credits = ⟨0, 0, 0, 0⟩ ∧ (s.link l).tokens = 0)

/-! ### Tables and buffers -/

/-- The pool, the station table, the shadows, the load copy and the block map are in canonical form, and the fill
contexts stand in rising number, below 8 (R1, R65, R134, R135, R155). -/
def CanonicalLaw (s : State) : Prop :=
  Table.wf .unused s.entries ∧ Table.wf .initial s.stations ∧ Table.wf 0 s.shadow ∧
    Table.wf .empty s.image.blocks ∧ s.image.contexts.Pairwise (fun a b => a.1 < b.1) ∧
    (∀ c ∈ s.image.contexts, c.1 < Config.fillContexts) ∧ (∀ d, s.loader.load = some d → Table.wf 0 d.copy)

/-- The write buffer holds at most 8 writes and the read list at most 8 reads (R151, R153). -/
def BufferLaw (s : State) : Prop := writeEntries s ≤ Config.writeBuffer ∧ s.bus.reads.length ≤ Config.readList

/-! ### The image tracker and the apply gate (R128, R134, R135, R142, R143) -/

/-- The number of VERIFIED blocks of a block map. -/
def verifiedBlocks (t : Table BlockState) : Nat := (t.filter (fun c => c.2 = .verified)).length

/-- A session is OPEN only in ACTIVE mode, on an area aligned to a block; its blocks lie below its count; the verified
count is the number of VERIFIED blocks; every fill context in use serves a FILLING block of its own, and every FILLING
block has one. -/
def ImageLaw (s : State) : Prop :=
  CanonicalLaw s ∧
  (s.image.session = .opened →
    s.loader.mode = .active ∧ s.image.base % 1024 = 0 ∧ 1 ≤ s.image.count ∧ s.image.count ≤ s.image.capacity) ∧
  (0 < s.image.capacity → s.image.base % 1024 = 0) ∧
  (∀ m, s.loader.map = some m → 0 < m.capacity → m.imageBase % 1024 = 0) ∧
  (s.loader.load ≠ none → s.loader.mode = .loading) ∧
  (∀ c ∈ s.image.blocks, c.1 < s.image.count) ∧
  s.image.verified = verifiedBlocks s.image.blocks ∧
  (∀ c ∈ s.image.contexts, blockState s c.2.block = .filling) ∧
  (s.image.contexts.map (fun c => c.2.block)).Nodup ∧
  ∀ c ∈ s.image.blocks, c.2 = .filling → ∃ x ∈ s.image.contexts, x.2.block = c.1

/-- In ACTIVE mode the gate's mask is that of its five conditions as they stand and the gate is open exactly when no
flag is set; in every other mode the gate is shut. -/
def GateLaw (s : State) : Prop :=
  (s.loader.mode = .active → s.gate.reasons = gateReasons s ∧ s.gate.isOpen = s.gate.reasons.clear) ∧
  (s.loader.mode ≠ .active → s.gate.isOpen = false)

/-! ### Stations (R99, R101, R143) -/

/-- The station is in one of the four moving states. -/
def stationMoves (s : State) (st : StationId) : Bool :=
  match (s.station st).handoff with
  | some h => isMoving h
  | none => false

/-- An invalid station has no handoff timer, no sweep or drain, and is in no moving state; the gate's count is the
number of stations in the four moving states. -/
def StationLaw (s : State) : Prop :=
  (∀ st, (s.station st).valid = false →
    (s.station st).timer = none ∧ (s.station st).operation = .idle ∧ stationMoves s st = false) ∧
  s.gate.moving = (allStations.filter (stationMoves s)).length

/-! ### The entry pool and the moves through it (R1, R2, R5, R6) -/

/-- The entries in the places that hold them: the free set, the class queues, the hold lists, the in-flight sets. -/
def placed (s : State) : List Nat :=
  s.admission.freeSet ++ allLinks.flatMap (fun l => allClasses.flatMap (fun c => s.queue l c)) ++
    allStations.flatMap (fun st => (s.station st).holdList) ++
    allLinks.flatMap (fun l => (s.link l).inFlight.map InFlight.entry)

/-- Each of the 2048 entries stands in exactly one place, and once (R1, R3, R5, R6). -/
def PlacedOnce (s : State) : Prop :=
  (placed s).Perm (List.range Config.poolSize) ∧ ∀ c ∈ s.entries, c.1 < Config.poolSize

/-- The state of an entry matches the place that holds it: a FREE entry has no field left, a HELD one is a DIRECT
frame of the station that holds it, and one IN_FLIGHT has its egress slot (R1, R5, R6, R115). -/
def TagsMatch (s : State) : Prop :=
  (∀ i ∈ s.admission.freeSet, s.entry i = .unused) ∧
  (∀ l c, ∀ i ∈ s.queue l c, (s.entry i).state = .queued ∧ (s.entry i).egressSlot = none) ∧
  (∀ st, ∀ i ∈ (s.station st).holdList, let e := s.entry i
    e.state = .held ∧ e.station = some st ∧ e.origin = .direct ∧ e.egressSlot = none) ∧
  (∀ l, ∀ f ∈ (s.link l).inFlight,
    (s.entry f.entry).state = .inFlight ∧ (s.entry f.entry).egressSlot = some f.slot)

/-- A hold list has at most 128 entries, the pool at most 512 HELD ones, and an egress slot at most one in-flight
entry (R5, R6). -/
def WithinLimits (s : State) : Prop :=
  (∀ st, (s.station st).holdList.length ≤ Config.holdLimit) ∧ holdCount s ≤ Config.holdBudget ∧
    ∀ l, ((s.link l).inFlight.map InFlight.slot).Nodup

/-- An in-flight entry without an answer copy is the one whose answer waits on its staging read, and no marker's
answer waits so (R51, R52). -/
def AnswersMatch (s : State) : Prop :=
  ∀ l, (∀ f ∈ (s.link l).inFlight, f.copy = none →
      ∃ a, (s.link l).answering = some a ∧ a.slot = f.slot ∧ a.entry = f.entry) ∧
    ∀ a, (s.link l).answering = some a →
      ⟨a.slot, a.entry, none⟩ ∈ (s.link l).inFlight ∧ (s.entry a.entry).origin ≠ .marker

/-- The handoff state in which a sweep or drain runs (R102, R106). -/
def operationState : Operation → Option HandoffState
  | .idle => none
  | .sweep => some .departing
  | .forwardDrain => some .forwarding
  | .returnDrain => some .resident
  | .arrivalDrain => some .resident
  | .nullifyDrain => some .absent

/-- The handoff state in which a timer of a kind runs (R116). -/
def timerState : TimerKind → HandoffState
  | .hold => .departing
  | .forward => .forwarding
  | .arrival => .arriving

/-- Frames are held by a station that is DEPARTING, ARRIVING or draining; a sweep, a drain or a timer runs in its own
handoff state, a timer beside no operation; and a marker is under way in RELEASING only (R16, R101, R116, R119). -/
def MovesMatch (s : State) : Prop :=
  ∀ st, let x := s.station st
    (x.holdList ≠ [] → draining x = true ∨ x.handoff = some .departing ∨ x.handoff = some .arriving) ∧
    (x.operation ≠ .idle → x.handoff = operationState x.operation) ∧
    (∀ k n, x.timer = some (k, n) → x.operation = .idle ∧ x.handoff = some (timerState k)) ∧
    (x.markerPhase ≠ .none → x.handoff = some .releasing)

/-- The stations whose marker fill waits for the downstream port or holds it (R120). -/
def fillsUnderWay (s : State) : List StationId :=
  s.bus.own.filterMap (fun o => match o.access with
    | .fill st _ _ => some st
    | _ => none) ++
  match s.bus.port with
    | .fill st => [st]
    | _ => []

/-- A station is FILLING while its one fill is under way, and SENDING while its one marker entry lives (R119, R120,
R121). -/
def MarkersMatch (s : State) : Prop :=
  (fillsUnderWay s).Nodup ∧ (∀ st, st ∈ fillsUnderWay s ↔ (s.station st).markerPhase = .filling) ∧
  (∀ i, (s.entry i).origin = .marker →
    ∃ st, (s.entry i).station = some st ∧ (s.station st).markerPhase = .sending) ∧
  (∀ i j, (s.entry i).origin = .marker → (s.entry j).origin = .marker →
    (s.entry i).station = (s.entry j).station → i = j) ∧
  ∀ st, (s.station st).markerPhase = .sending → ∃ i, (s.entry i).origin = .marker ∧ (s.entry i).station = some st

/-- Outside ACTIVE mode nothing is queued or held and no station waits for a buffer or an entry; outside ACTIVE and
STOPPING every entry is free and no marker is under way; a load is in progress in LOADING only (R23, R126, R169,
R176). -/
def ModesMatch (s : State) : Prop :=
  (s.loader.mode ≠ .active →
    (∀ l c, s.queue l c = []) ∧ ∀ st, (s.station st).holdList = [] ∧
      (s.station st).markerPhase ≠ .waitBuffer ∧ (s.station st).markerPhase ≠ .waitEntry) ∧
  (s.loader.mode = .transparent ∨ s.loader.mode = .loading →
    (∀ l, (s.link l).inFlight = []) ∧ ∀ st, (s.station st).markerPhase = .none) ∧
  (s.loader.load ≠ none → s.loader.mode = .loading)

/-- The count of queued direct entries of a link is the number of DIRECT entries in its four class queues (R22), and a
station's forward and carried counts sum to the number of its FORWARDED entries not yet freed (R99, R118). -/
def CountsMatch (s : State) : Prop :=
  (∀ l, (s.link l).directQueued =
    ((allClasses.flatMap (fun c => s.queue l c)).filter (fun i => (s.entry i).origin = .direct)).length) ∧
  ∀ st, (s.station st).forwardCount + (s.station st).carriedCount =
    (s.entries.filter (fun c => c.2.origin = .forwarded ∧ c.2.station = some st)).length

/-- The law of the entry pool: each entry in exactly one place, tagged by it, within the limits; the counts of entries;
and what the steps need to keep it so: where answers, moves, markers and modes stand. -/
def PoolLaw (s : State) : Prop :=
  PlacedOnce s ∧ TagsMatch s ∧ WithinLimits s ∧ CountsMatch s ∧ AnswersMatch s ∧ MovesMatch s ∧ MarkersMatch s ∧
    ModesMatch s

/-- All the laws of a safe run. -/
def Safe (s : State) : Prop :=
  ClockLaw s ∧ RingLaw s ∧ AirtimeLaw s ∧ ImageLaw s ∧ BufferLaw s ∧ GateLaw s ∧ StationLaw s ∧ PoolLaw s

end Sys2Proof.Machine
end

