-- ==== Sys2Proof/Certificates/Slice0/Obligations.lean ====
section
/-! DEFINITION. The statements about the WN-44, in the order of the spec: every command, time, the loader, the bus path,
admission, the scheduler, stations, handoff, the controls, the image tracker, events, and the laws every step keeps.
In each, `start s` is the state a command finds: `s` after the services that were due (R20, R119). -/

open Sys2Proof Sys2Proof.Machine

/-! ### Every command -/

/-- On an empty queue the part idles (the model's choice, log entry 17); else the command at the front is taken and
the rest of the queue stays. -/
def Obligations.StepTakesTheFrontCommand : Prop :=
  (∀ s : State, s.pending = [] → step s = .next s) ∧
  ∀ (c : Instr) (rest : List Instr) (s : State), s.pending = c :: rest → step s = exec c { s with pending := rest }

/-- Every command answers a next state, whatever the state and its operands, and leaves the queue alone.
The model's choices: no rule stops the part, so nothing faults or refuses (log entry 35), and a command whose event
cannot occur in the state standing answers a next state too (log entry 12). -/
def Obligations.EveryCommandAnswersANextState : Prop :=
  ∀ (c : Instr) (s : State), ∃ t, exec c s = .next t ∧ t.pending = s.pending

/-- Before a command is taken, the outputs of the last one go and every service it left due is taken, one after the
other, each as its own row answers: with a release outstanding and an entry free STALL_SERVED while a link is stalled,
else MARKER_ENTRY_SERVED while a station waits for an entry (R20), else MARKER_BUFFER_SERVED while a buffer is free and a
station waits for one (R119). Then none is due; where none is due at first, nothing more happens.
That they are taken at this point, and a release before a freed buffer, is the model's choice (log entry 4). -/
def Obligations.DueServicesAreTakenFirst : Prop :=
  ∀ s : State, let q : State := { s with out := [] }
    let released (v : State) : Prop := v.loader.mode = .active ∧ 0 < v.admission.releases ∧ v.admission.freeSet ≠ []
    let waits (v : State) (p : MarkerPhase) : Prop := ∃ st ∈ v.handoff.pendingMarkers, (v.station st).markerPhase = p
    let stall (v : State) : Prop := released v ∧ ∃ l, (v.link l).stall ≠ none
    let entry (v : State) : Prop := released v ∧ (∀ l, (v.link l).stall = none) ∧ waits v .waitEntry
    let buffer (v : State) : Prop := v.loader.mode = .active ∧ (∃ b, b < 8 ∧ b ∉ v.handoff.busyBuffers) ∧
      waits v .waitBuffer
    let servedBy (c : Instr) : Prop := ∃ t, exec c q = .next t ∧ start s = start t
    (stall q → servedBy .stallServed) ∧
    (¬ stall q → entry q → servedBy .markerEntryServed) ∧
    (¬ stall q → ¬ entry q → buffer q → servedBy .markerBufferServed) ∧
    (¬ stall q → ¬ entry q → ¬ buffer q → start s = q) ∧
    (serviceDue q = true ↔ stall q ∨ entry q ∨ buffer q) ∧
    (¬ stall (start s) ∧ ¬ entry (start s) ∧ ¬ buffer (start s)) ∧ serviceDue (start s) = false ∧
    (serviceDue { s with out := [] } = false → start s = { s with out := [] }) ∧
    ((start s).out = [] ∧ (start s).pending = s.pending ∧ (start s).clock = s.clock ∧ (start s).game = s.game ∧
      (start s).image = s.image ∧ (start s).gate = s.gate ∧ (start s).loader = s.loader ∧ (start s).shadow = s.shadow)

/-- RESET_INPUT leaves every block at its reset values, whatever stood before: the pool all FREE in ascending order,
queues, hold lists, in-flight sets and reads empty, credits and tokens 0, stations invalid, clock unset at 0, session
NONE, gate SHUT, ring empty, mode TRANSPARENT with the strap value sampled, the last command NONE, no load taken yet
and so the default routing of every kind, every shadow 0. Reads the SRAM still has
to answer return to no one. The command queue is the model's own and stays.
The model's choices: registers without a stated reset value stand at 0 (log entry 3), the command queue and the reads
already granted stay (log entry 31), and reads that wait at the upstream port are gone (log entry 42). -/
def Obligations.ResetInputLeavesTheResetValues : Prop :=
  ∀ (plc : BitVec 3) (s : State), ∃ t, exec (.resetInput plc) s = .next t ∧ t.pending = s.pending ∧ t.out = [] ∧
    t.bus = BusPath.initial (s.bus.outstanding.map (fun o => { o with live := false })) ∧
    (∀ i, t.entry i = .unused) ∧
    t.admission = { freeSet := List.range Config.poolSize, stampCounter := 0, lastServed := .backhaul, releases := 0 } ∧
    (∀ l, t.link l = .initial) ∧ (∀ st, t.station st = .initial) ∧
    t.game = { active := false, quiet := none } ∧
    t.clock = { now := 0, inGroup := 0, minute := 0, second := 0, subSecond := 0, isSet := false,
                boundaryDue := false } ∧
    t.handoff = { busyBuffers := [], pendingMarkers := [] } ∧
    (t.image.session = .none ∧ t.image.lastResult = .none ∧ t.image.verified = 0 ∧ t.image.contexts = [] ∧
      ∀ b, blockState t b = .empty) ∧
    t.gate = { isOpen := false, reasons := ⟨false, false, false, false, false⟩, moving := 0 } ∧
    t.events = { producer := 0, consumer := 0, records := [], missed := 0, missedCount := 0, line := false } ∧
    (t.loader.mode = .transparent ∧ t.loader.plc = plc ∧ t.loader.map = none ∧ t.loader.load = none ∧
      t.loader.stopTimer = none ∧ t.loader.lastResult = .none ∧ t.loader.failure = .none ∧ t.loader.abandoned = 0 ∧
      t.loader.lastCommand = 0 ∧ t.loader.subject = 0 ∧ t.loader.loaded = false) ∧
    (∀ k, kindRouting t k =
      if k = 0 ∨ k = 1 ∨ k = 26 ∨ k = 27 then .now else if k = 5 ∨ k = 6 then .off else .line) ∧
    (∀ off, shadowWord t off = 0)

/-! ### Time -/

/-- MILLISECOND: what the standing millisecond event still has to bring is taken, then the count advances by one, the
week clock by one millisecond (a minute boundary becomes due at 59 s and 999 ms), and in ACTIVE mode each link's
tokens become min(B, T + G), B and G as its word holds them, a G above 1000 acting as 1000. Nothing else changes.
What the standing event still has to bring is what the rows MINUTE_BOUNDARY, QUIET_TIMER_EXPIRY, for each station in
ascending number its HOLD_, FORWARD_ and ARRIVAL_TIMER_EXPIRY, STOP_TIMEOUT and COALESCING_TIMEOUT answer, one after
another, each of which acts only where it is due; nothing is left where none is.
The model's choices: what the standing event still has to bring is taken first, and in this order (log entry 7), and a
boundary that falls due leaves second and sub-second standing (log entry 9). -/
def Obligations.MillisecondAdvancesClocksAndRefills : Prop :=
  (∀ s : State, let v := finishMillisecond (start s)
    ∃ t, exec .millisecond s = .next t ∧ t = { v with clock := t.clock, links := t.links } ∧
      t.clock.now = v.clock.now + 1 ∧ t.clock.inGroup = (v.clock.inGroup + 1) % 125 ∧ t.clock.isSet = v.clock.isSet ∧
      t.clock.minute = v.clock.minute ∧
      (v.clock.subSecond < 999 → t.clock.subSecond = v.clock.subSecond + 1 ∧ t.clock.second = v.clock.second ∧
        t.clock.boundaryDue = v.clock.boundaryDue) ∧
      (999 ≤ v.clock.subSecond → v.clock.second < 59 → t.clock.subSecond = 0 ∧
        t.clock.second = v.clock.second + 1 ∧ t.clock.boundaryDue = v.clock.boundaryDue) ∧
      (999 ≤ v.clock.subSecond → 59 ≤ v.clock.second → t.clock.boundaryDue = true ∧
        t.clock.subSecond = v.clock.subSecond ∧ t.clock.second = v.clock.second) ∧
      (v.loader.mode = .active → ∀ l, let field (lo : Nat) := bits (shadowWord v (0x110 + 4 * linkNumber l)) lo 16
        t.link l = { v.link l with
          tokens := min (field 16 : Int) ((v.link l).tokens + (min 1000 (field 0) : Nat)) }) ∧
      (v.loader.mode ≠ .active → t.links = v.links)) ∧
  (∀ s : State,
    let rows : List Instr := [.minuteBoundary, .quietTimerExpiry] ++
      allStations.flatMap (fun st => [.holdTimerExpiry st, .forwardTimerExpiry st, .arrivalTimerExpiry st]) ++
      [.stopTimeout, .coalescingTimeout]
    let answered (v : State) (c : Instr) : State := match exec c v with
      | .next t => t
      | _ => v
    finishMillisecond (start s) = rows.foldl answered s) ∧
  allStations = List.finRange 128 ∧
  ∀ u : State, u.clock.boundaryDue = false → u.game.quiet ≠ some u.clock.now →
    (∀ st k, (u.station st).timer ≠ some (k, u.clock.now)) → stopTimerDue u = false → coalescingDue u = false →
    finishMillisecond u = u

/-- MINUTE_BOUNDARY, where one is due: the minute advances from 10079 to 0, second and sub-second become 0, and in
ACTIVE mode every station is charged and evaluated, ascending, and then the gate. A minute boundary at one station: an
invalid one is left alone. A valid one in BONUS and marked active is charged one bonus minute, with BONUS_SPENT at 0;
its mark is cleared; its access is evaluated by the record and the new balance, with ACCESS_CHANGE where it changes;
and its status is written back.
The model's choices: when a boundary is due (log entry 9), and the stations in ascending order, then the gate (log entry
18). -/
def Obligations.MinuteBoundaryPassesAndEvaluates : Prop :=
  (∀ s : State, let u := start s
    let v : State := { u with clock := { u.clock with
      minute := if u.clock.minute < 10079 then u.clock.minute + 1 else 0, second := 0, subSecond := 0,
      boundaryDue := false } }
    exec .minuteBoundary s = .next
      (if u.clock.boundaryDue = true then
        (if u.loader.mode = .active then evaluateGate (forEach boundaryStation allStations v) else v)
      else u)) ∧
  (∀ (st : StationId) (v : State), let x := v.station st
    (x.valid = false → boundaryStation st v = v) ∧
    (x.valid = true →
      let charged := x.access = some .bonus ∧ x.active = true
      let b := if charged then x.bonus - 1 else x.bonus
      let now := some (accessOf v x.record b)
      let e1 := if charged ∧ b = 0 then raise (.bonusSpent st) v else v
      let e2 := if now = x.access then e1 else raise (.accessChange st x.access now) e1
      let t := boundaryStation st v
      t = { issueStationStatus st 0 e2 with stations := t.stations } ∧
      t.station st = { x with bonus := b, active := false, access := now } ∧
      ∀ k, k ≠ st → t.station k = v.station k))

/-- QUIET_TIMER_EXPIRY: at the timer's millisecond GAME_ACTIVE becomes false, the timer stops and the gate is told.
The three handoff timers of a station, each at its millisecond and of its kind: the hold timer begins a RETURN drain
to RESIDENT; the forward timer is taken as RELEASE; the arrival timer raises MARKER_MISSED and begins an ARRIVAL drain
to RESIDENT. Each is stopped first. COALESCING_TIMEOUT: the line is asserted where the timeout is not 0 and the oldest
LINE record of the ring has reached it; nothing else changes. The timeout is 10 ms before the first load, and then the
field, to 1000.
The model's readings: a timer started between two millisecond events counts from the later (log entry 8), MARKER_MISSED
comes before the acts of the change and a RELEASE's marker fill after them (log entry 18), and the coalescing test is
made in every mode (log entry 47). -/
def Obligations.TimersExpireAtTheirMillisecond : Prop :=
  (∀ s : State, let u := start s
    exec .quietTimerExpiry s = .next
      (if u.game.quiet = some u.clock.now then noticeGate { u with game := { active := false, quiet := none } } else u)) ∧
  (∀ (st : StationId) (s : State), let u := start s
    let x := u.station st
    let stopped (v : State) := v.setStation st { v.station st with timer := none }
    exec (.holdTimerExpiry st) s = .next
      (if x.timer = some (.hold, u.clock.now) then changeWith st .resident .returnDrain (stopped u) else u) ∧
    exec (.forwardTimerExpiry st) s = .next
      (if x.timer = some (.forward, u.clock.now) then testEmission st (changeState st .releasing 0 (stopped u))
       else u) ∧
    exec (.arrivalTimerExpiry st) s = .next
      (if x.timer = some (.arrival, u.clock.now) then
        changeWith st .resident .arrivalDrain (stopped (raise (.markerMissed st x.sequence) u)) else u)) ∧
  (∀ s : State, let u := start s
    let timeout := if u.loader.loaded = true then min 1000 (bits (shadowWord u 0x138) 16 16) else 10
    let due := timeout ≠ 0 ∧ ∃ pre r post, u.events.records = pre ++ r :: post ∧
      (∀ q ∈ pre, q.routing ≠ .line) ∧ r.routing = .line ∧ timeout ≤ (u.clock.now - r.written).toNat
    (due → exec .coalescingTimeout s = .next { u with events := { u.events with line := true } }) ∧
    (¬ due → exec .coalescingTimeout s = .next u))

/-- A change of handoff state. It counts the station among the four moving states or out of them and issues its status
write-back; a change with no sweep or drain raises HANDOFF_STATE at once with the given count, and one that begins
them notes the old state and a count of 0 for their end. In ACTIVE mode the gate is evaluated in the same act.
The model's choices: the order write-back, HANDOFF_STATE, gate event (log entry 18), and RESIDENT read where a station
has no handoff state (log entry 36). -/
def Obligations.StateChangesCountReportAndEvaluate : Prop :=
  ∀ (st : StationId) (h : HandoffState) (op : Operation) (n : Nat) (s : State), let x := s.station st
    let old := x.handoff.getD .resident
    let moving := s.gate.moving - (if isMoving old then 1 else 0) + (if isMoving h then 1 else 0)
    let told (v : State) := if v.loader.mode = .active then evaluateGate v else v
    let entered := issueStationStatus st 0
      { s.setStation st { x with handoff := some h } with gate := { s.gate with moving := moving } }
    changeState st h n s = told (raise (.handoffState st old h x.sequence n) entered) ∧
    changeWith st h op s = told (clearPoints st (entered.setStation st
      { x with handoff := some h, operation := op, movedFrom := old, moved := 0 }))

/-! ### The loader's commands and the stop -/

/-- RUN in TRANSPARENT: the mode becomes LOADING, the device status word is written with the NONE write behind it, and
the load begins with an empty copy and its first read at offset 0. Other words of the block are plain memory. The
device commands that change no mode. `d` is the state the command is judged in: in TRANSPARENT the control word alone
is merged, in ACTIVE the whole block is, and its other words have acted. NONE does nothing more; RUN in ACTIVE and
STOP in TRANSPARENT are refused REFUSED_STATE and an unknown code REFUSED_INVALID, each with the device status word
and the NONE write behind it; a write that does not enable the command's lane is no command.
The model's choices: a device command comes last of a write's acts (log entry 16), the device status write of RUN
comes before the first load read (log entry 18), one such write serves the result of RUN and its change of mode (log
entry 30), and the field shown for an unknown command is free (log entry 1). -/
def Obligations.DeviceCommandsAreJudgedByTheMode : Prop :=
  (∀ (s : State) (w : UpWrite) (p : PolicyWord), let u := start s
    let m := mergeShadow p (forwarded u w)
    let r : State := { m with loader := { u.loader with mode := .loading, lastCommand := 1, lastResult := .accepted } }
    u.loader.mode = .transparent → Carries u w p → p.off = 0 → lane p.mask 0 = true →
    bits (shadowWord m 0) 0 8 = 1 →
    exec (.run w) s = .next { issue (.loadRead 0) (issue (.deviceStatus (deviceStatusWord r) true) r) with
      loader := { r.loader with load := some { next := 32, reading := some 0, copy := [], held := [] } } }) ∧
  (∀ (s : State) (w : UpWrite) (p : PolicyWord), let u := start s
    let d := if u.loader.mode = .transparent then mergeShadow p (forwarded u w)
      else forEach actActive (goodWords u w) (merged u w)
    let c := bits (shadowWord d 0) 0 8
    let judged (r : Result) : State :=
      let e : State := { d with loader := { d.loader with lastCommand := BitVec.ofNat 8 c, lastResult := r } }
      issue (.deviceStatus (deviceStatusWord e) true) e
    Carries u w p → p.off = 0 →
    ((u.loader.mode = .transparent ∨ u.loader.mode = .active) → lane p.mask 0 = true →
      (c = 0 → exec (.deviceCommandNone w) s = .next d) ∧
      (2 < c → exec (.deviceCommandUnknown w) s = .next (judged .refusedInvalid))) ∧
    (u.loader.mode = .active → lane p.mask 0 = true → c = 1 → exec (.run w) s = .next (judged .refusedState)) ∧
    (u.loader.mode = .transparent → lane p.mask 0 = true → c = 2 → exec (.stop w) s = .next (judged .refusedState)) ∧
    ((u.loader.mode = .transparent ∨ u.loader.mode = .active) → lane p.mask 0 = false →
      ∀ k ∈ [Instr.run w, .stop w, .deviceCommandNone w, .deviceCommandUnknown w], exec k s = .next d))

/-- STOP in ACTIVE. The stop ends at once where nothing is in flight and no fill runs, else the mode is STOPPING with
the stop timer at 2000 ms; every ready slot, queue, hold list, stall and waiting marker is gone, and every sweep,
drain, handoff timer and activity mark; GAME_ACTIVE is false, the session NONE and the gate shut. In-flight sets,
handoff states, usage, clocks, shadows, the stamp counter and the last link served stay. Every queued and held entry is
FREE and joins the free set in the order of R23; a free of a FORWARDED one lowers its station's two counts by one in
sum; and a marker that waited or was queued has no buffer and phase NONE. The part's own stream takes the device status
word with mode STOPPING and its NONE write, then RETURNED for each ready slot, stalled slot, queued and held frame,
given that no entry stands in two places (O57); then the tracker and the gate act once, the update status word is
written, and the end is tested. It holds exactly when every in-flight set is empty, no admission read is in flight and
no fill is in progress. An end clears credits, tokens and pointers, writes the device status word in TRANSPARENT and
raises STOPPED with the abandoned count and whether by timeout: with 0 and not so where it follows the STOP at once.
The model's choices: the words of the write are merged, its other words act, and the command comes last (log entry
16), the stop timer counts from the next millisecond event (log entry 8), one device status write serves result and
mode (log entry 30), and the order of the writes and events among the blocks (log entry 18). -/
def Obligations.StopBeginsTheStop : Prop :=
  (∀ (s : State) (w : UpWrite) (p : PolicyWord), let u := start s
    let d := forEach actActive (goodWords u w) (merged u w)
    u.loader.mode = .active → Carries u w p → p.off = 0 → lane p.mask 0 = true → bits (shadowWord d 0) 0 8 = 2 →
    let queued := allLinks.flatMap (fun l => allClasses.flatMap (fun c => d.queue l c))
    let held := allStations.flatMap (fun st => (d.station st).holdList)
    let isMarker (i : Nat) := (d.entry i).origin = .marker
    let dropped (st : StationId) := (d.station st).markerPhase = .waitBuffer ∨
      (d.station st).markerPhase = .waitEntry ∨ ∃ i ∈ queued, isMarker i ∧ (d.entry i).station = some st
    let slots (l : Link) := (d.link l).ready.filter (fun n => (d.link l).cursor ≤ n) ++
      (d.link l).ready.filter (fun n => n < (d.link l).cursor) ++
      if (d.link l).stall = none then [] else [(d.link l).cursor]
    let returned (k : Link × Nat) : OwnAccess :=
      .write ((ringsOf d k.1).stagingBase + 32 * k.2 + 28) [⟨⟨slotStatusWord .returned, true, false, true⟩, 0x8⟩]
    ∃ t, exec (.stop w) s = .next t ∧
      (if stopMayEnd t then t.loader.mode = .transparent ∧ t.loader.stopTimer = none ∧ t.loader.map = none
       else t.loader.mode = .stopping ∧ t.loader.stopTimer = some (d.clock.now + 1 + 2000#32) ∧
         t.loader.map = d.loader.map) ∧
      (t.loader.lastCommand = 2 ∧ t.loader.lastResult = .accepted ∧ t.loader.abandoned = 0) ∧
      (∀ l, (∀ c, t.queue l c = []) ∧ (t.link l).ready = [] ∧ (t.link l).stall = none ∧
        (t.link l).lowArmed = false ∧ (t.link l).inFlight = (d.link l).inFlight ∧
        (t.link l).admissionRead = (d.link l).admissionRead ∧ (t.link l).answering = (d.link l).answering ∧
        (t.link l).answerCursor = (d.link l).answerCursor) ∧
      (∀ st, let x := d.station st; let y := t.station st
        y.holdList = [] ∧ y.operation = .idle ∧ y.timer = none ∧ y.earlyMarker = none ∧ y.active = false ∧
        y.markerPhase ≠ .waitBuffer ∧ y.markerPhase ≠ .waitEntry ∧
        y.valid = x.valid ∧ y.record = x.record ∧ y.handoff = x.handoff ∧ y.access = x.access ∧ y.usage = x.usage ∧
        y.signal = x.signal ∧ y.bonus = x.bonus) ∧
      (t.game = { active := false, quiet := none } ∧ t.image.session = .none ∧ t.image.blocks = [] ∧
        t.image.verified = 0 ∧ t.image.contexts = [] ∧ t.gate.isOpen = false) ∧
      (t.handoff.pendingMarkers = [] ∧ t.admission.releases = 0 ∧
        t.admission.stampCounter = d.admission.stampCounter ∧ t.admission.lastServed = d.admission.lastServed) ∧
      (t.clock = d.clock ∧ t.shadow = d.shadow) ∧
      ((∀ i ∈ queued ++ held, t.entry i = .unused) ∧ (∀ i, i ∉ queued ++ held → t.entry i = d.entry i) ∧
        t.admission.freeSet = d.admission.freeSet ++ queued ++ held) ∧
      (∀ st, (dropped st → (t.station st).markerPhase = .none ∧ (t.station st).markerBuffer = none) ∧
        (¬ dropped st → (t.station st).markerPhase = (d.station st).markerPhase ∧
          (t.station st).markerBuffer = (d.station st).markerBuffer)) ∧
      (∀ b, b ∈ t.handoff.busyBuffers ↔ b ∈ d.handoff.busyBuffers ∧
        ∀ st, dropped st → (d.station st).markerBuffer ≠ some b) ∧
      ((queued ++ held).Nodup → (∀ st, (t.station st).forwardCount + (t.station st).carriedCount =
          (d.station st).forwardCount + (d.station st).carriedCount - ((queued ++ held).filter (fun i =>
            (d.entry i).origin = .forwarded ∧ (d.entry i).station = some st)).length) ∧
        ∃ x : State, x.events = d.events ∧ x.gate = d.gate ∧ x.image = d.image ∧ x.clock = d.clock ∧
          x.game = { active := false, quiet := none } ∧ x.shadow = d.shadow ∧
          x.loader = { d.loader with
            mode := .stopping, stopTimer := some (d.clock.now + 1 + 2000#32), abandoned := 0
            lastCommand := 2, lastResult := .accepted } ∧
          x.bus.own.map OwnItem.access = d.bus.own.map OwnItem.access ++ [.deviceStatus (deviceStatusWord x) true] ++
            ((allLinks.flatMap (fun l => (slots l).map (fun n => (l, n)))) ++
              (queued.filter (fun i => ¬ isMarker i)).filterMap (fun i => (d.entry i).staging) ++
              held.filterMap (fun i => (d.entry i).staging)).map returned ∧
          let y := issueUpdateStatus 0 (evaluateGate { x with
            image := { x.image with session := .none, blocks := [], verified := 0, contexts := [] } })
          t = if stopMayEnd y then endStop false y else y)) ∧
  (∀ v : State, stopMayEnd v = true ↔
    (∀ l, (v.link l).inFlight = [] ∧ (v.link l).admissionRead = none) ∧
      ∀ st, (v.station st).markerPhase ≠ .filling) ∧
  ∀ (b : Bool) (v : State), let t := endStop b v
    t.loader = { v.loader with mode := .transparent, stopTimer := none, map := none } ∧
    (∀ l, t.link l = { v.link l with credits := ⟨0, 0, 0, 0⟩, tokens := 0, pointer := .game }) ∧
    ∃ x : State, x = { v with loader := t.loader, links := t.links } ∧
      t = raise (.stopped b v.loader.abandoned) (issue (.deviceStatus (deviceStatusWord x) false) x)

/-- STOP_TIMEOUT: at the stop timer's millisecond in STOPPING, every entry in flight, admission read, answer read and
fill is abandoned, and the entries and admission reads are counted. The entries are FREE, without a status write or a
charge, and join the free set by link and, within a link, by rising egress slot; the buffer of a marker in flight or of
a fill is freed, and its station's phase is NONE; the accesses of the part's own that served them leave its stream, and
nothing is added to it. The mode becomes TRANSPARENT, credits, tokens and pointers are cleared and the region map is
discarded; the device status word is written and STOPPED raised, with the count and the timeout mark. At any other time
nothing happens.
The model's choices: a fill at the port is given up (log entry 24), and the device status write is issued before STOPPED
is raised (log entry 18). -/
def Obligations.StopTimeoutAbandonsAndEnds : Prop :=
  (∀ s : State, let u := start s
    let dropped (st : StationId) := (u.station st).markerPhase = .filling ∨ ∃ l, ∃ f ∈ (u.link l).inFlight,
      (u.entry f.entry).origin = .marker ∧ (u.entry f.entry).station = some st
    if u.loader.mode = .stopping ∧ u.loader.stopTimer = some u.clock.now then
      ∃ t, exec .stopTimeout s = .next t ∧
        (t.loader.mode = .transparent ∧ t.loader.stopTimer = none ∧ t.loader.map = none ∧
          t.loader.abandoned = (allLinks.map (fun l =>
            (u.link l).inFlight.length + (if (u.link l).admissionRead.isSome then 1 else 0))).sum) ∧
        (∀ l, (t.link l).inFlight = [] ∧ (t.link l).admissionRead = none ∧ (t.link l).answering = none ∧
          (t.link l).credits = ⟨0, 0, 0, 0⟩ ∧ (t.link l).tokens = 0 ∧ (t.link l).pointer = .game) ∧
        (∀ st, (t.station st).markerPhase ≠ .filling ∧ (t.station st).usage = (u.station st).usage ∧
          (t.station st).handoff = (u.station st).handoff) ∧
        (∀ i ∈ t.bus.own, isAbandoned i.access = false) ∧
        (∀ o ∈ t.bus.outstanding, abandonsRead o.owner = true → o.live = false) ∧
        (∀ r ∈ t.bus.reads, ∀ l, r.progress ≠ .answering l) ∧
        t.bus.reads.map (fun r => r.id) = u.bus.reads.map (fun r => r.id) ∧
        (t.clock = u.clock ∧ t.shadow = u.shadow ∧ t.image = u.image ∧ t.out = []) ∧
        ((∀ l, ∀ f ∈ (u.link l).inFlight, t.entry f.entry = .unused) ∧
          (∀ i, (∀ l, ∀ f ∈ (u.link l).inFlight, f.entry ≠ i) → t.entry i = u.entry i) ∧
          ∃ bySlot : Link → List InFlight,
            (∀ l, (bySlot l).Perm (u.link l).inFlight ∧ (bySlot l).Pairwise (fun f g => f.slot ≤ g.slot)) ∧
            t.admission.freeSet =
              u.admission.freeSet ++ allLinks.flatMap (fun l => (bySlot l).map InFlight.entry)) ∧
        (∀ st, (dropped st → (t.station st).markerPhase = .none ∧ (t.station st).markerBuffer = none) ∧
          (¬ dropped st → (t.station st).markerPhase = (u.station st).markerPhase ∧
            (t.station st).markerBuffer = (u.station st).markerBuffer)) ∧
        (∀ b, b ∈ t.handoff.busyBuffers ↔ b ∈ u.handoff.busyBuffers ∧
          ∀ st, dropped st → (u.station st).markerBuffer ≠ some b) ∧
        t.bus.port = (match u.bus.port with | .fill _ => .idle | .forwardedWrite => .forwardedWrite | .idle => .idle) ∧
        ∃ y : State, y.events = u.events ∧ y.loader = t.loader ∧
          y.bus.own = u.bus.own.filter (fun i => isAbandoned i.access = false) ∧
          t = raise (.stopped true t.loader.abandoned) (issue (.deviceStatus (deviceStatusWord y) false) y)
    else exec .stopTimeout s = .next u) ∧
  (∀ a : OwnAccess, isAbandoned a = true ↔ (∃ l n, a = .admissionRead l n) ∨ (∃ l n, a = .answerRead l n) ∨
    ∃ st n bs, a = .fill st n bs) ∧
  ∀ o : ReadOwner, abandonsRead o = true ↔ ∃ l, o = .admission l ∨ o = .answer l

/-! ### The bus path -/

/-- WRITE_RETRY. Any write issued while the buffer holds 8, while it covers the control word of a station with a sweep
or drain in ACTIVE mode, or the device control word in LOADING or STOPPING, is answered RETRY: whichever row it would
have been, it is neither accepted nor forwarded, no block sees it and no event is raised. What is no bus block of 1,
2, 4 or 8 beats is no request, and nothing is done.
The model's choices: nothing is done for what is no block (log entry 12), the row's name does not matter (log entry
11), and a write to an egress ring meets the full buffer too (log entry 27). -/
def Obligations.WritesAreRefusedWithRetry : Prop :=
  (∀ (u : State) (w : UpWrite), retryDue u w = true ↔
    8 ≤ writeEntries u ∨
    (u.loader.mode = .active ∧ ∃ x ∈ writtenWords w, ∃ st : StationId, policyBase u ≤ x.addr ∧
      controlWordOf (x.addr - policyBase u) = some st ∧ (u.station st).operation ≠ .idle) ∨
    ((u.loader.mode = .loading ∨ u.loader.mode = .stopping) ∧ ∃ x ∈ writtenWords w, x.addr = policyBase u)) ∧
  ∀ (s : State) (w : UpWrite),
    ∀ c ∈ [Instr.writeRetry w, .watchedWrite w, .run w, .stop w, .deviceCommandNone w, .deviceCommandUnknown w,
        .readyReport w, .stagingWrite w, .egressWrite w, .receiveControlWrite w, .commit w, .validate w, .invalidate w,
        .depart w, .evict w, .forward w, .abort w, .release w, .arrive w, .adopt w, .clockSet w, .profileWrite w,
        .sessionOpen w, .sessionClose w, .sessionCommandNone w, .sessionCommandUnknown w, .maintenanceIndexWrite w,
        .gameBurstWrite w, .coalescingThresholdWrite w, .consumerWrite w, .imageWrite w],
      (isBlock w.beats.length = true → retryDue (start s) w = true →
        exec c s = .next { start s with out := [.writeRetry] }) ∧
      (isBlock w.beats.length = false → exec c s = .next (start s))

/-- WATCHED_WRITE. A write to plain memory is accepted and forwarded as issued, into one write-buffer entry. One to
the policy area whose words have no act is forwarded as well, its good watched words are merged into their shadows
lane by lane, and every other shadow word stays; in STOPPING only the coalescing and consumer words act. A watched
write in LOADING: each good word is held while its read is in flight, merged into the load copy where its read has
returned, and left to its read where that is not issued. A write of neither the clock nor the consumer word changes no
shadow and acts on nothing. A block of 1, 2, 4 or 8 beats stands at its address aligned down to its size; a longer one
than 1 enables every lane; a beat that carries RESPONSE is error-marked and goes on without GOOD, its other flags kept;
and the good words are the good beats on watched words, in ascending order. A merge takes the enabled lanes, bit by bit.
The model's choices: merges first, then acts (log entry 16), the clock and consumer words in LOADING (log entry 20),
a burst merged in STOPPING without a clamp of T (log entry 21), the error-marked beat reported (log entry 26), and
the other beats of its write merged and acted on (log entry 46), and a beat's RESPONSE flag kept (log entry 41). -/
def Obligations.WatchedWritesAreForwardedAndMerged : Prop :=
  ((∀ (s : State) (w : UpWrite), let u := start s
    Accepts u w →
    (regionOf u (writeStart w) = .plain →
      exec (.watchedWrite w) s = .next { u with
        out := [.writeAccepted]
        bus := { u.bus with
          forwarded := u.bus.forwarded ++ [⟨u.bus.nextForwarded, .write (writeStart w) (forwardedBeats w)⟩]
          nextForwarded := u.bus.nextForwarded + 1 } }) ∧
    (InPolicy u w → u.loader.mode = .active → (∀ p ∈ goodWords u w, inert p = true) →
      exec (.watchedWrite w) s = .next (merged u w)) ∧
    (InPolicy u w → u.loader.mode = .stopping → (∀ p ∈ goodWords u w, p.off ≠ 0x138 ∧ p.off ≠ 0x140) →
      exec (.watchedWrite w) s = .next (merged u w))) ∧
  ∀ (u : State) (w : UpWrite), isBlock w.beats.length = true → InPolicy u w →
    (∀ p ∈ goodWords u w,
      shadowWord (merged u w) p.off = mergeLanes (shadowWord u p.off) p.data p.mask) ∧
    (∀ off, (∀ p ∈ goodWords u w, p.off / 4 ≠ off / 4) → shadowWord (merged u w) off = shadowWord u off) ∧
    merged u w = { reportBad (watchedWords u w) (forwarded u w) with shadow := (merged u w).shadow }) ∧
  (∀ (s : State) (w : UpWrite) (d : Load), let u := start s
    let enter (d : Load) (p : PolicyWord) : Load :=
      if d.reading = some (p.off / 32 * 32) then { d with held := d.held ++ [(p.off, p.data, p.mask)] }
      else if p.off < d.next then { d with copy := mergeWord d.copy p.off p.data p.mask }
      else d
    u.loader.mode = .loading → u.loader.load = some d → Accepts u w → InPolicy u w →
    ∃ t, exec (.watchedWrite w) s = .next t ∧ t.loader.load = some ((goodWords u w).foldl enter d) ∧
      ((∀ p ∈ goodWords u w, p.off ≠ 0x008 ∧ p.off ≠ 0x140) →
        t = { reportBad (watchedWords u w) (forwarded u w) with loader := t.loader } ∧
        t.loader = { u.loader with load := t.loader.load })) ∧
  (∀ n : Nat, isBlock n = true ↔ n = 1 ∨ n = 2 ∨ n = 4 ∨ n = 8) ∧
  (∀ (u : State) (w : UpWrite), let n := w.beats.length
    let at' := writeStart w
    let watched (x : WrittenWord) := isWatched (x.addr - policyBase u) = true
    isBlock n = true →
    (at' % (4 * n) = 0 ∧ at' ≤ w.addr.toNat ∧ w.addr.toNat < at' + 4 * n) ∧
    ((forwardedBeats w).length = n ∧ (writtenWords w).length = n) ∧
    (∀ k b, w.beats[k]? = some b → ∃ good : Bool, (good = true ↔ b.good = true ∧ b.response = false) ∧
      let mask : Lanes := if n = 1 then w.mask else 0xF
      (forwardedBeats w)[k]? = some (⟨{ b with good := good }, mask⟩ : WriteBeat) ∧
      (writtenWords w)[k]? = some (⟨at' + 4 * k, b.data, mask, good⟩ : WrittenWord)) ∧
    (∀ p : PolicyWord, p ∈ goodWords u w ↔
      ∃ x ∈ writtenWords w, x.good = true ∧ watched x ∧ p = ⟨x.addr - policyBase u, x.data, x.mask⟩) ∧
    (InPolicy u w → (goodWords u w).Pairwise (fun p q => p.off < q.off)) ∧
    ∀ v : State, reportBad (watchedWords u w) v =
      match (writtenWords w).find? (fun x => x.good = false ∧ watched x) with
      | some x => raise (.memoryErrorBus x.addr) v
      | none => v) ∧
  ∀ (old new : Word) (m : Lanes) (k : Nat), k < 32 →
    bit (mergeLanes old new m) k = if lane m (k / 8) = true then bit new k else bit old k

/-- DOWNSTREAM_GRANT: the arbiter takes one request at a time. A forwarded read is held by every own write issued
before its acceptance, an own read by every forwarded write accepted before its issue; where both heads are eligible
the stream not granted last is granted, where one is, it is. A granted write of the forwarded stream keeps its entry
until its last beat is taken; a granted read waits for its beats behind the reads granted before it.
WRITE_ENTRY_FREED: the port has taken the last beat of the granted write, which leaves the head of the forwarded
stream; where no forwarded write is at the port, nothing happens. Each stream counts what joins it: an own access joins
the end of its stream with the next number of that stream and, as the mark of what was accepted before it, the next
number of the forwarded stream; a write or read joins the forwarded stream with that number, and a read carries the
next number of the own stream at its acceptance. A write-back that joins one that waits keeps that one's numbers.
The model's choices: the counters are the model's own and stand for the orders (log entry 33), and a write-back that
joins keeps the waiting one's place, with its numbers, and counts the commits it serves (log entry 19). -/
def Obligations.TheArbiterAlternates : Prop :=
  (∀ s : State, let u := start s
    let heldF := ∃ id a n k, (u.bus.forwarded.head?.map ForwardedItem.request) = some (.read id a n k) ∧
      ∃ o ∈ u.bus.own, isOwnWrite o.access = true ∧ o.number < k
    let heldO := ∃ o, u.bus.own.head? = some o ∧ isOwnWrite o.access = false ∧
      ∃ i ∈ u.bus.forwarded, isForwardedWrite i = true ∧ i.number < o.after
    let f := u.bus.forwarded ≠ [] ∧ ¬ heldF
    let o := u.bus.own ≠ [] ∧ ¬ heldO
    (u.bus.port ≠ .idle ∨ (¬ f ∧ ¬ o) → exec .downstreamGrant s = .next u) ∧
    (u.bus.port = .idle → o → (f → u.bus.lastGranted = .forwarded) → exec .downstreamGrant s = .next (grantOwn u)) ∧
    (u.bus.port = .idle → f → (o → u.bus.lastGranted = .own) →
      (∀ n addr beats is, u.bus.forwarded = ⟨n, .write addr beats⟩ :: is →
        exec .downstreamGrant s = .next { u with
          out := [.downstreamWrite addr beats]
          bus := { u.bus with port := .forwardedWrite, lastGranted := .forwarded } }) ∧
      (∀ n id addr k after is, u.bus.forwarded = ⟨n, .read id addr k after⟩ :: is →
        exec .downstreamGrant s = .next { u with
          out := [.downstreamRead addr k]
          bus := { u.bus with
            forwarded := is, lastGranted := .forwarded
            outstanding := u.bus.outstanding ++ [⟨.forwarded id, k, true⟩] } }))) ∧
  (∀ s : State, let u := start s
    exec .writeEntryFreed s = .next
      (if u.bus.port = .forwardedWrite then
        { u with bus := { u.bus with port := .idle, forwarded := u.bus.forwarded.tail } }
      else u)) ∧
  (∀ (a : OwnAccess) (v : State), issue a v = { v with bus := { v.bus with
    own := v.bus.own ++ [{ number := v.bus.nextOwn, after := v.bus.nextForwarded, access := a }]
    nextOwn := v.bus.nextOwn + 1 } }) ∧
  (∀ (addr : Nat) (beats : List WriteBeat) (v : State), forwardWrite addr beats v = { v with bus := { v.bus with
    forwarded := v.bus.forwarded ++ [{ number := v.bus.nextForwarded, request := .write addr beats }]
    nextForwarded := v.bus.nextForwarded + 1 } }) ∧
  (∀ (r : ReadEntry) (v : State), (forwardRead r v).bus.forwarded = v.bus.forwarded ++
      [{ number := v.bus.nextForwarded, request := .read r.id r.addr r.beats r.after }] ∧
    (forwardRead r v).bus.nextForwarded = v.bus.nextForwarded + 1) ∧
  (∀ (r : UpRead) (v : State), (readEntry v r).after = v.bus.nextOwn) ∧
  ∀ (st : StationId) (n : Nat) (v : State),
    let joins (t : State) (is : OwnAccess → Prop) (at' : Nat → OwnAccess) : Prop :=
      ((∀ i ∈ v.bus.own, ¬ is i.access) → t = issue (at' n) v) ∧
      ∀ pre i k post, v.bus.own = pre ++ i :: post → i.access = at' k → (∀ j ∈ pre, ¬ is j.access) →
        t = { v with bus := { v.bus with own := pre ++ { i with access := at' (k + n) } :: post } }
    joins (issueStationStatus st n v) (fun a => ∃ k, a = .stationStatus st k) (.stationStatus st) ∧
    joins (issueUpdateStatus n v) (fun a => ∃ k, a = .updateStatus k) .updateStatus

/-- A grant of the part's own stream. Reads join the outstanding reads; a fill holds the port. A status write-back
carries its words as they stand at the grant, and the NONE writes that follow it, a single lane 0 of the control word,
are issued only then. A write-back joins one of its station, or of the update status word, that waits, and else goes to
the end of the stream. The beats of the part's own writes carry GOOD, the final one LAST, with every lane enabled. The
status area's four words hold last result, handoff state, access state, remaining bonus, signal and usage; the update
status word session state, last result, verified count, gate and reason mask; the device status word mode, last command
and result, failure reason, subject and the abandoned count to 511; each at its bits, coded by the tables, else 0.
The model's choices: the values are formed at the grant, and one NONE write follows for each joined commit with a
request (log entry 19), and the session result is coded as a station's last result (log entry 48). The field of an
unknown last command is left free (log entry 1). -/
def Obligations.OwnGrantsCarryTheirWordsAndNoneWrites : Prop :=
  (∀ (u : State) (n a : Nat) (x : OwnAccess) (os : List OwnItem), u.bus.own = ⟨n, a, x⟩ :: os →
    let t := grantOwn u
    let readAt (o : ReadOwner) (addr : Nat) : Prop :=
      t.out = u.out ++ [.downstreamRead addr 8] ∧ t.bus.outstanding = u.bus.outstanding ++ [⟨o, 8, true⟩] ∧
        t.bus.own = os ∧ t.bus.port = u.bus.port
    let wroteAt (addr : Nat) (beats : List WriteBeat) (nones at' : Nat) : Prop :=
      t.out = u.out ++ [.downstreamWrite addr beats] ∧ t.bus.outstanding = u.bus.outstanding ∧
        t.bus.own.map OwnItem.access = os.map OwnItem.access ++
          List.replicate nones (.write at' [⟨⟨0, true, false, true⟩, 0x1⟩])
    t = { u with out := t.out, bus := t.bus } ∧ t.bus.lastGranted = .own ∧
    t.bus.forwarded = u.bus.forwarded ∧ t.bus.reads = u.bus.reads ∧
    match x with
    | .admissionRead l addr => readAt (.admission l) addr
    | .answerRead l addr => readAt (.answer l) addr
    | .loadRead off => readAt (.load off) (policyBase u + off)
    | .write addr beats => wroteAt addr beats 0 0 ∧ t.bus.port = u.bus.port
    | .stationStatus st k =>
      wroteAt (policyBase u + 0x2000 + 64 * st.val + 32) (ownBeats (stationStatusWords (u.station st))) k
        (policyBase u + 0x2000 + 64 * st.val + 60) ∧ t.bus.port = u.bus.port
    | .updateStatus k =>
      wroteAt (policyBase u + 0x190) (ownBeats [updateStatusWord u]) k (policyBase u + 0x188) ∧
        t.bus.port = u.bus.port
    | .deviceStatus v b =>
      wroteAt (policyBase u + 4) (ownBeats [v]) (if b = true then 1 else 0) (policyBase u) ∧ t.bus.port = u.bus.port
    | .producerIndex => wroteAt (policyBase u + 0x13C) (ownBeats [word u.events.producer]) 0 0 ∧
        t.bus.port = u.bus.port
    | .fill st addr beats => wroteAt addr beats 0 0 ∧ t.bus.port = .fill st) ∧
  (∀ (st : StationId) (n : Nat) (v : State),
    let joins (t : State) (is : OwnAccess → Prop) (at' : Nat → OwnAccess) : Prop :=
      let old := v.bus.own.map OwnItem.access
      let new := t.bus.own.map OwnItem.access
      t = { v with bus := t.bus } ∧ ((∀ a ∈ old, ¬ is a) → new = old ++ [at' n]) ∧
      ∀ pre k post, old = pre ++ at' k :: post → (∀ a ∈ pre, ¬ is a) → new = pre ++ at' (k + n) :: post
    joins (issueStationStatus st n v) (fun a => ∃ k, a = .stationStatus st k) (.stationStatus st) ∧
    joins (issueUpdateStatus n v) (fun a => ∃ k, a = .updateStatus k) .updateStatus) ∧
  (∀ ws : List Word, (ownBeats ws).length = ws.length ∧ ∀ n w, ws[n]? = some w →
    (ownBeats ws)[n]? = some (⟨⟨w, decide (n + 1 = ws.length), false, true⟩, 0xF⟩ : WriteBeat)) ∧
  (∀ x : Station, ∃ a b c, stationStatusWords x = [a, b, c, 0] ∧
    bits a 0 8 = resultCode x.lastResult ∧ bits a 8 8 = handoffCode x.handoff ∧ bits a 16 8 = accessCode x.access ∧
    bits a 24 8 = 0 ∧ bits b 0 16 = x.bonus % 2 ^ 16 ∧ (bits b 16 16 : Int) = x.signal.getD 0 % 2 ^ 16 ∧
    c.toNat = x.usage % 2 ^ 32) ∧
  (∀ v : State, let w := updateStatusWord v
    let r := v.gate.reasons
    bits w 0 2 = (match v.image.session with | .none => 0 | .opened => 1 | .closed => 2) ∧
    bits w 2 2 = resultCode v.image.lastResult ∧ bits w 4 13 = v.image.verified % 2 ^ 13 ∧ bit w 17 = v.gate.isOpen ∧
    (bit w 18 = r.image ∧ bit w 19 = r.clock ∧ bit w 20 = r.window ∧ bit w 21 = r.game ∧ bit w 22 = r.moving) ∧
    bits w 23 9 = 0) ∧
  (∀ v : State, let w := deviceStatusWord v
    bits w 0 2 = (match v.loader.mode with | .transparent => 0 | .loading => 1 | .active => 2 | .stopping => 3) ∧
    (v.loader.lastCommand.toNat ≤ 2 → bits w 2 2 = v.loader.lastCommand.toNat) ∧
    bits w 4 2 = resultCode v.loader.lastResult ∧ bits w 6 4 = reasonCode v.loader.failure ∧
    bits w 10 13 = v.loader.subject % 2 ^ 13 ∧ bits w 23 9 = min v.loader.abandoned 511) ∧
  [Result.none, .accepted, .refusedState, .refusedInvalid].map resultCode = [0, 1, 2, 3] ∧
  [none, some .resident, some .departing, some .forwarding, some .releasing, some .absent, some .arriving].map
    handoffCode = [0, 1, 2, 3, 4, 5, 6] ∧
  [none, some .openAccess, some .bonus, some .blocked, some .paused].map accessCode = [0, 1, 2, 3, 4] ∧
  [LoadReason.none, .ringSize, .imageSize, .ringAlign, .imageAlign, .startSlot, .range, .overlap, .memory].map
    reasonCode = [0, 1, 2, 3, 4, 5, 6, 7, 8]

/-- FORWARDED_READ_RETURN: the beats, error marks kept, are the answer of the oldest outstanding read; every complete
answer that no earlier read holds back leaves the part in request order. Beats of an abandoned read go to no one. -/
def Obligations.ForwardedReadsAnswerInRequestOrder : Prop :=
  (∀ (s : State) (id : Nat) (live : Bool) (os : List Outstanding) (beats : List Beat), let u := start s
    u.bus.outstanding = ⟨.forwarded id, beats.length, live⟩ :: os →
    let answer := beats.map (fun b => { b with response := true })
    let rs := u.bus.reads.map (fun r => if r.id = id then { r with progress := .ready answer } else r)
    exec (.forwardedReadReturn beats) s = .next
      (if live = true then { u with
        out := (readyFront rs).1.map .readAnswer
        bus := { u.bus with outstanding := os, reads := (readyFront rs).2 } }
      else { u with bus := { u.bus with outstanding := os } })) ∧
  ∀ rs : List ReadEntry, ∃ done, rs = done ++ (readyFront rs).2 ∧
    done.map ReadEntry.progress = (readyFront rs).1.map .ready ∧
    ∀ r ∈ (readyFront rs).2.head?, ∀ b, r.progress ≠ .ready b

/-! ### Staging and admission -/

/-- READY_REPORT and STAGING_WRITE: a write accepted in a staging ring is forwarded; MEMORY_ERROR is raised for an
error-marked word 7 and STAGING_OVERWRITE for an owned slot. A good word 7 that sets READY with owner PART, its two
lanes enabled, flags a slot in LOADING, flags one not owned in ACTIVE, and nullifies one not owned RETURNED in
STOPPING. A staging status write: one single-beat write of byte lane 3 of the slot's control word, which holds owner
SOFTWARE and the status code, 1 to 9 from SENT to MEMORY_ERROR; every other lane keeps what software last wrote.
The model's choices: one STAGING_OVERWRITE for a write (log entry 25), MEMORY_ERROR in LOADING and STOPPING too (log
entry 26), it before STAGING_OVERWRITE (log entry 18), and ownership read off the reads and entries (log entry 5). -/
def Obligations.StagingWritesReportReadiness : Prop :=
  ((∀ (s : State) (w : UpWrite) (l : Link) (slot first : Nat), let u := start s
    Accepts u w → regionOf u (writeStart w) = .staging l slot first →
    let owned := slotOwned u l slot = true
    let seven := (writtenWords w)[7 - first]?
    let e1 := match seven with
      | some x => if x.good then forwarded u w else raise (.memoryErrorBus x.addr) (forwarded u w)
      | none => forwarded u w
    let e := if owned then raise (.stagingOverwrite l slot first) e1 else e1
    let ready := ∃ x, seven = some x ∧ x.good = true ∧ lane x.mask 2 = true ∧ lane x.mask 3 = true ∧
      bit x.data 16 = true ∧ bits x.data 24 2 = 1
    let flagged := e.setLink l { e.link l with ready := insertSlot slot (e.link l).ready }
    ∀ c ∈ [Instr.readyReport w, .stagingWrite w],
      (¬ ready → exec c s = .next e) ∧
      (ready → exec c s = .next (match u.loader.mode with
        | .loading => flagged
        | .active => if owned then e else flagged
        | .stopping => if owned then e else writeSlotStatus l slot .returned e
        | .transparent => e))) ∧
  (∀ (n m : Nat) (ns : List Nat), m ∈ insertSlot n ns ↔ m = n ∨ m ∈ ns) ∧
  ∀ (u : State) (l : Link) (slot : Nat), slotOwned u l slot = true ↔
    (u.link l).admissionRead = some slot ∨ ((u.link l).stall ≠ none ∧ (u.link l).cursor = slot) ∨
    ∃ c ∈ u.entries, c.2.state ≠ .free ∧ c.2.staging = some (l, slot)) ∧
  (∀ (l : Link) (slot : Nat) (st : SlotStatus) (v : State), let w := slotStatusWord st
    writeSlotStatus l slot st v = issue (.write ((ringsOf v l).stagingBase + 32 * slot + 28)
      [⟨⟨w, true, false, true⟩, 0x8⟩]) v ∧
    bits w 24 2 = 0 ∧ bits w 30 2 = 0 ∧
    bits w 26 4 = (match st with
      | .sent => 1 | .failed => 2 | .blocked => 3 | .notHere => 4 | .queueFull => 5 | .holdFull => 6
      | .malformed => 7 | .returned => 8 | .memoryError => 9))

/-- ADMISSION_READ_ISSUE: in ACTIVE mode, the slot at the cursor flagged ready and not owned, no admission read of the
link in flight and the link not stalled, the 8-beat read of the slot's descriptor is issued, the flag is cleared and
the slot is owned. Otherwise nothing is issued.
The model's choice: the read is issued at this command alone (log entry 45). -/
def Obligations.AdmissionReadsAreIssuedAtTheCursor : Prop :=
  ∀ (l : Link) (s : State), let u := start s
    let x := u.link l
    let due := u.loader.mode = .active ∧ x.cursor ∈ x.ready ∧ slotOwned u l x.cursor = false ∧
      x.admissionRead = none ∧ x.stall = none
    let t := issue (.admissionRead l ((ringsOf u l).stagingBase + 32 * x.cursor))
      (u.setLink l { x with ready := x.ready.filter (fun n => n ≠ x.cursor), admissionRead := some x.cursor })
    (¬ due → exec (.admissionReadIssue l) s = .next u) ∧
    (due → exec (.admissionReadIssue l) s = .next t ∧ slotOwned t l x.cursor = true)

/-- ADMISSION_READ_RETURN. An error-marked beat nullifies the slot MEMORY_ERROR; in STOPPING a good read nullifies it
RETURNED; both end the slot's admission, and in STOPPING test the end of the stop. In ACTIVE mode a good read with no
entry free stalls the link, which keeps the descriptor; with one free it is classified and the cursor advances. Beats
of a read given up earlier go to no one.
The model's choice: the cursor advances in STOPPING too, and R23's "Each cursor keeps its last value until the next
load" is read of the value after the last advance (log entry 28); and the MEMORY_ERROR status write is issued before the
event is raised, and both before the end of a stop (log entry 18). -/
def Obligations.AdmissionReadsReturn : Prop :=
  (∀ (s : State) (l : Link) (os : List Outstanding) (beats : List Beat), let u := start s
    u.bus.outstanding = ⟨.admission l, beats.length, false⟩ :: os →
    exec (.admissionReadReturn beats) s = .next { u with bus := { u.bus with outstanding := os } }) ∧
  ∀ (s : State) (l : Link) (slot : Nat) (os : List Outstanding) (beats : List Beat), let u := start s
    u.bus.outstanding = ⟨.admission l, beats.length, true⟩ :: os → (u.link l).admissionRead = some slot →
    let v := ({ u with bus := { u.bus with outstanding := os } }).setLink l { u.link l with admissionRead := none }
    let words := beats.map (fun b => b.data)
    let good := ∀ b ∈ beats, b.good = true
    let ended (t : State) := if t.loader.mode = .stopping ∧ stopMayEnd t = true then endStop false t else t
    (¬ good → exec (.admissionReadReturn beats) s = .next
      (ended (advanceCursor l (raise (.memoryErrorAdmission l slot) (writeSlotStatus l slot .memoryError v))))) ∧
    (good → u.loader.mode = .stopping → exec (.admissionReadReturn beats) s = .next
      (ended (advanceCursor l (writeSlotStatus l slot .returned v)))) ∧
    (good → u.loader.mode = .active → u.admission.freeSet = [] → exec (.admissionReadReturn beats) s = .next
      (raise (.poolStall l) (v.setLink l { v.link l with stall := some words }))) ∧
    (good → u.loader.mode = .active → ∀ i is, u.admission.freeSet = i :: is →
      exec (.admissionReadReturn beats) s = .next (advanceCursor l (classify i l slot words v).1)) ∧
    ∀ t : State, (advanceCursor l t).link l =
      { t.link l with cursor := ((t.link l).cursor + 1) % (ringsOf t l).stagingSize }

/-- Classification of the descriptor words `d` of a staging slot with entry `i` at the head of the free set. The
second component says whether an entry is taken. Rows: length 0, access closed, NOT_HERE, queue at its cap, hold list
or hold budget full, and the three placements, by the handoff state and the hold list of the station. An entry taken
leaves the head of the free set with the counter's stamp; one that joins a queue or a hold list stands at its tail,
QUEUED or HELD; a DIRECT one raises the link's count of queued direct entries. A change of that count in ACTIVE mode is
compared with the low-water mark: at or above a mark that is not 0 the flag is armed, and below it an armed flag
raises LINK_LOW and falls. A hold list is full at 128 entries, and every one at 512 HELD entries of the pool. The cap of
a queue is its field, from 1 to 1024.
The model's choices: QUEUE_DROP names the staging link where the full queue is link 3's (log entry 37), a cap field of 0
acts as 1 (log entry 39), and the status write of a nullified frame is issued before MALFORMED, QUEUE_DROP or HOLD_DROP
is raised (log entry 18). -/
def Obligations.FramesAreClassifiedAndPlaced : Prop :=
  (∀ (i : Nat) (l : Link) (slot : Nat) (d : List Word) (v : State),
    let r := classify i l slot d v
    let named := if h : bits (wordAt d 5) 0 8 < 128 then some (⟨bits (wordAt d 5) 0 8, h⟩ : StationId) else none
    let st := named.filter (fun k => (v.station k).valid)
    let e := if named.isSome ∧ st = none then raise (.unknownStation l slot (bits (wordAt d 5) 0 8)) v else v
    let hit := ∃ n, n < 64 ∧ bit (shadowWord v (0x1000 + 16 * n + 4)) 31 = true ∧
      shadowWord v (0x1000 + 16 * n) = wordAt d 6 ∧ bit (shadowWord v (0x1000 + 16 * n + 4)) (linkNumber l) = true ∧
      (128 ≤ bits (shadowWord v (0x1000 + 16 * n + 4)) 8 8 ∨
        st.map Fin.val = some (bits (shadowWord v (0x1000 + 16 * n + 4)) 8 8))
    let length := bits (wordAt d 7) 0 14
    let exempt := bit (wordAt d 5) 8
    let drop (a : SlotStatus) : State × Bool := (writeSlotStatus l slot a e, false)
    let limited (a : SlotStatus) (x : Event) : State × Bool := (raise x (writeSlotStatus l slot a e), false)
    (length = 0 → r = (raise (.malformed l slot) (writeSlotStatus l slot .malformed v), false)) ∧
    (length ≠ 0 → ∀ c : Cls, (hit → c = .game) → (¬ hit → c = clsOf (bits (wordAt d 7) 14 2)) →
      let fill (a : EntryState) (o : Origin) (cost : Nat) : State :=
        takeEntry i { state := a, staging := some (l, slot), station := st, cls := c, length := length, cost := cost,
                      stamp := 0, origin := o, exempt := exempt, egressSlot := none, marker := none } e
      let queued (k : Link) (t : State) : State × Bool :=
        let cap := max 1 (min 1024 (bits (shadowWord v (0x0C0 + 16 * linkNumber k + 4 * clsCode c)) 16 16))
        if cap ≤ (v.queue k c).length then limited .queueFull (.queueDrop l c slot)
        else (joinQueue k c i t, true)
      (st = none → r = queued l (fill .queued .direct (directCost v l none length))) ∧
      (∀ k, st = some k → let x := v.station k
        let closed := exempt = false ∧ (x.access = some .blocked ∨ x.access = some .paused) ∧
          (x.handoff = some .resident ∨ x.handoff = some .arriving ∨ x.handoff = some .departing)
        let holding := x.operation = .forwardDrain ∨ x.operation = .returnDrain ∨ x.operation = .arrivalDrain ∨
          x.operation = .nullifyDrain ∨ x.holdList ≠ []
        (closed → r = drop .blocked) ∧
        (¬ closed →
          (holding ∨ x.handoff = some .departing ∨ x.handoff = some .arriving →
            r = if holdFull v k then limited .holdFull (.holdDrop l slot)
              else (holdTail k i (fill .held .direct (directCost v l (some k) length)), true)) ∧
          (¬ holding → x.handoff = some .resident →
            r = queued l (fill .queued .direct (directCost v l (some k) length))) ∧
          (¬ holding → x.handoff = some .forwarding →
            let t := fill .queued .forwarded (forwardedCost v length)
            r = queued .backhaul (t.setStation k { t.station k with forwardCount := (t.station k).forwardCount + 1 })) ∧
          (¬ holding → x.handoff = some .releasing ∨ x.handoff = some .absent → r = drop .notHere))))) ∧
  (∀ (i : Nat) (is : List Nat) (e : Entry) (v : State), v.admission.freeSet = i :: is →
    let t := takeEntry i e v
    t.entry i = { e with stamp := v.admission.stampCounter } ∧ (∀ j, j ≠ i → t.entry j = v.entry j) ∧
    t = { v with
      entries := t.entries
      admission := { v.admission with freeSet := is, stampCounter := v.admission.stampCounter + 1 } }) ∧
  (∀ (l : Link) (c : Cls) (i : Nat) (v : State), ∃ x : State, x = { v with entries := x.entries, links := x.links } ∧
    x.entry i = { v.entry i with state := .queued, egressSlot := none } ∧ (∀ j, j ≠ i → x.entry j = v.entry j) ∧
    x.link l = { v.link l with queues := (v.link l).queues.put c (v.queue l c ++ [i]) } ∧
    (∀ k, k ≠ l → x.link k = v.link k) ∧
    joinQueue l c i v =
      if (v.entry i).origin = .direct then setDirectQueued l ((v.link l).directQueued + 1) x else x) ∧
  (∀ (st : StationId) (i : Nat) (v : State), let t := holdTail st i v
    t = { v with entries := t.entries, stations := t.stations } ∧
    t.entry i = { v.entry i with state := .held, egressSlot := none } ∧ (∀ j, j ≠ i → t.entry j = v.entry j) ∧
    t.station st = { v.station st with holdList := (v.station st).holdList ++ [i] } ∧
    ∀ k, k ≠ st → t.station k = v.station k) ∧
  (∀ (l : Link) (n : Nat) (v : State), let k := v.link l
    let mark := min 1024 (bits (shadowWord v (0x100 + 4 * linkNumber l)) 0 16)
    let counted (b : Bool) : State := v.setLink l { k with directQueued := n, lowArmed := b }
    (v.loader.mode = .active → mark ≠ 0 → mark ≤ n → setDirectQueued l n v = counted true) ∧
    (v.loader.mode = .active → n < mark → k.lowArmed = true →
      setDirectQueued l n v = raise (.linkLow l n) (counted false)) ∧
    (v.loader.mode ≠ .active ∨ mark = 0 ∨ (n < mark ∧ k.lowArmed = false) →
      setDirectQueued l n v = counted k.lowArmed)) ∧
  ∀ (st : StationId) (v : State), Table.wf .unused v.entries → (∀ c ∈ v.entries, c.1 < 2048) →
    (holdFull v st = true ↔ 128 ≤ (v.station st).holdList.length ∨
      512 ≤ ((List.range 2048).filter (fun i => (v.entry i).state = .held)).length)

/-- STALL_SERVED: in ACTIVE mode, with a release outstanding and an entry free, the first stalled link in rotation
after the last link served classifies its held descriptor; its stall ends, its cursor advances, and it becomes the
last link served. A placement spends the release; a nullification passes it on. With none of these to serve, nothing
happens. A freed entry is FREE with no field left and joins the tail of the free set; its release is outstanding where
a link is stalled or a station waits for an entry, and else serves no one. The free of a FORWARDED entry first lowers
its station's carried count, where that is above 0 and the entry is older than the validation stamp, else its forward
count, whose fall tests for marker emission.
The model's choice: a forward count of 0 leaves the carried count to be lowered (log entry 22). -/
def Obligations.ReleasesServeStalledLinksInRotation : Prop :=
  (∀ (s : State) (l : Link) (k i : Nat) (is : List Nat) (d : List Word), let q : State := { s with out := [] }
    q.loader.mode = .active → 0 < q.admission.releases → q.admission.freeSet = i :: is →
    1 ≤ k → k ≤ 4 → l = linkOf (linkNumber q.admission.lastServed + k) → (q.link l).stall = some d →
    (∀ j, 1 ≤ j → j < k → (q.link (linkOf (linkNumber q.admission.lastServed + j))).stall = none) →
    let ended : State := { q.setLink l { q.link l with stall := none } with
      admission := { q.admission with lastServed := l } }
    let c := classify i l (q.link l).cursor d ended
    let spent (t : State) : State := { t with admission := { t.admission with releases := t.admission.releases - 1 } }
    let t := advanceCursor l (if c.2 then spent c.1 else c.1)
    exec .stallServed s = .next
      (if entryAwaited t then t else { t with admission := { t.admission with releases := 0 } })) ∧
  (∀ s : State, let q : State := { s with out := [] }
    q.loader.mode ≠ .active ∨ q.admission.releases = 0 ∨ q.admission.freeSet = [] ∨
      (∀ l, (q.link l).stall = none) →
    exec .stallServed s = .next q) ∧
  ∀ (i : Nat) (v : State), let e := v.entry i
    let t := freeEntry i v
    ∃ w : State,
      (e.origin ≠ .forwarded ∨ e.station = none → w = v) ∧
      (∀ st, e.origin = .forwarded → e.station = some st → let x := v.station st
        let old := 0 < x.carriedCount ∧ (x.forwardCount = 0 ∨
          (v.admission.stampCounter - x.validationStamp).toNat < (v.admission.stampCounter - e.stamp).toNat)
        w = if old then v.setStation st { x with carriedCount := x.carriedCount - 1 }
          else testEmission st (v.setStation st { x with forwardCount := x.forwardCount - 1 })) ∧
      (∃ n, ((∃ l, (w.link l).stall ≠ none) ∨
            (∃ st ∈ w.handoff.pendingMarkers, (w.station st).markerPhase = .waitEntry) → n = 1) ∧
          ((∀ l, (w.link l).stall = none) →
            (∀ st ∈ w.handoff.pendingMarkers, (w.station st).markerPhase ≠ .waitEntry) → n = 0) ∧
        t = { w with
          entries := t.entries
          admission := { w.admission with
            freeSet := v.admission.freeSet ++ [i], releases := v.admission.releases + n } }) ∧
      t.entry i = .unused ∧ ∀ j, j ≠ i → t.entry j = v.entry j

/-! ### The scheduler -/

/-- The cost C = O + ⌈80L / R⌉, saturating at 65535, with the overhead and rate of the staging link or of link 3. The
retry charge E = min(65535, r × C) falls on the class credit of the answering link, and for GAME on its tokens; the
usage of the station of a DIRECT or FORWARDED entry rises by C + E. -/
def Obligations.CostsAndChargesFollowTheTables : Prop :=
  ((∀ o r n q m : Nat, 0 < r → 80 * n = r * q + m → m < r →
    frameCost o r n = min 65535 (o + (if m = 0 then q else q + 1))) ∧
  (∀ (v : State) (l : Link) (n : Nat),
    directCost v l none n = frameCost ((v.link l).overhead.getD 0) ((v.link l).defaultRate.getD 60) n ∧
    (∀ st, directCost v l (some st) n = frameCost ((v.link l).overhead.getD 0)
      (if (v.station st).record.rate = 0 then (v.link l).defaultRate.getD 60 else (v.station st).record.rate) n) ∧
    forwardedCost v n = frameCost ((v.link .backhaul).overhead.getD 0) ((v.link .backhaul).defaultRate.getD 60) n ∧
    markerCost v = frameCost ((v.link .backhaul).overhead.getD 0) ((v.link .backhaul).defaultRate.getD 60) 64)) ∧
  (∀ (l : Link) (i r : Nat) (v : State), let e := v.entry i
    let x := min 65535 (r * e.cost)
    let k := v.link l
    chargeRetries l i r v = v.setLink l { k with
      credits := k.credits.put e.cls (max (-65536) (k.credits.get e.cls - x)),
      tokens := if e.cls = .game then max (-65535) (k.tokens - x) else k.tokens } ∧
    (∀ st, e.station = some st → e.origin ≠ .marker → chargeUsage i r v = v.setStation st
      { v.station st with usage := min 4294967295 ((v.station st).usage + (e.cost + x)) }) ∧
    (e.station = none ∨ e.origin = .marker → chargeUsage i r v = v))

/-- EGRESS_READ as an upstream read. It is taken into the list of at most 8, or waits at the port behind the reads
there; outside the egress rings it is forwarded; in an egress ring it is answered empty in LOADING, and else goes to
the scheduler of the link, which takes the reads of its link one at a time. The region of an address: in TRANSPARENT
plain, but for the device control word; else the policy area of 256 KiB at PLC × 8 MiB; else the staging, egress and
receive rings of the map in force, none without a map, by slot and word; else the session's span of the image area while
the session is OPEN; else plain.
The model's choices: EGRESS_READ carries every upstream read and the two later steps of one (log entry 13), and where
its event does not occur nothing changes (log entry 12). -/
def Obligations.UpstreamReadsAreListedAndClassified : Prop :=
  (∀ (s : State) (r : UpRead), let u := start s
    let e : ReadEntry := {
      id := u.bus.nextRead
      after := u.bus.nextOwn
      addr := r.addr.toNat / (4 * r.beats) * (4 * r.beats)
      beats := r.beats
      progress := .forwarded }
    let listed (x : State) : State :=
      { x with bus := { x.bus with reads := x.bus.reads ++ [e], nextRead := x.bus.nextRead + 1 } }
    let busy (l : Link) := (u.link l).answering ≠ none ∨ ∃ q ∈ u.bus.reads, ∃ a b, q.progress = .waiting l a b
    let taken (x : State) (t : State) : Prop :=
      ((∀ l a b, regionOf u e.addr ≠ .egress l a b) → t = forwardRead e (listed x)) ∧
      ∀ l slot first, regionOf u e.addr = .egress l slot first →
        (u.loader.mode = .loading → t = answerRead e.id (emptyWords first r.beats) (listed x)) ∧
        (u.loader.mode ≠ .loading →
          (¬ busy l → t = takeEgress l e ⟨e.id, slot, first, r.beats⟩ (listed x)) ∧
          (busy l → t = setProgress e.id (.waiting l slot first) (listed x)))
    (isBlock r.beats = false → exec (.egressRead (.issued r)) s = .next u) ∧
    (u.bus.portReads = [] ∨ 8 ≤ u.bus.reads.length → exec (.egressRead .fromPort) s = .next u) ∧
    (∀ l, (u.link l).answering ≠ none ∨ (∀ q ∈ u.bus.reads, ∀ a b, q.progress ≠ .waiting l a b) →
      exec (.egressRead (.byScheduler l)) s = .next u) ∧
    (isBlock r.beats = true →
    (8 ≤ u.bus.reads.length ∨ u.bus.portReads ≠ [] → exec (.egressRead (.issued r)) s = .next
      { u with bus := { u.bus with portReads := u.bus.portReads ++ [r] } }) ∧
    (u.bus.reads.length < 8 → u.bus.portReads = [] →
      ∃ t, exec (.egressRead (.issued r)) s = .next t ∧ taken u t) ∧
    (∀ rs, u.bus.portReads = r :: rs → u.bus.reads.length < 8 → ∃ t, exec (.egressRead .fromPort) s = .next t ∧
      taken { u with bus := { u.bus with portReads := rs } } t) ∧
    (∀ l a b pre q post, (u.link l).answering = none → u.bus.reads = pre ++ q :: post →
      (∀ k ∈ pre, ∀ a b, k.progress ≠ .waiting l a b) → q.progress = .waiting l a b →
      exec (.egressRead (.byScheduler l)) s = .next (takeEgress l q ⟨q.id, a, b, q.beats⟩ u)))) ∧
  (∀ (id : Nat) (p : ReadProgress) (v : State), setProgress id p v = { v with bus := { v.bus with
    reads := v.bus.reads.map (fun r => if r.id = id then { r with progress := p } else r) } }) ∧
  ∀ (u : State) (a : Nat), policyBase u = 0x800000 * u.loader.plc.toNat ∧
    (∀ m l, u.loader.map = some m → ringsOf u l = m.links.get l) ∧
    (u.loader.mode = .transparent → regionOf u a = if a = policyBase u then .policy 0 else .plain) ∧
    (u.loader.mode ≠ .transparent →
      let inArea := policyBase u ≤ a ∧ a < policyBase u + 0x40000
      let inRing (m : RegionMap) (n : Nat) := IsRing n ∧ areaBase m n ≤ a ∧ a < areaBase m n + areaBytes m n
      let inImage := u.image.session = .opened ∧ u.image.base ≤ a ∧ a < u.image.base + 1024 * u.image.count
      (inArea → regionOf u a = .policy (a - policyBase u)) ∧
      (¬ inArea → ∀ m n, u.loader.map = some m → FirstArea (inRing m) n →
        let slot := (a - areaBase m n) / 32
        let word := (a - areaBase m n) / 4 % 8
        regionOf u a = match n % 4 with
          | 0 => .staging (linkOf (n / 4)) slot word
          | 1 => .egress (linkOf (n / 4)) slot word
          | _ => .receive (linkOf (n / 4)) slot word) ∧
      (¬ inArea → (∀ m n, u.loader.map = some m → ¬ inRing m n) →
        regionOf u a = if inImage then .image (a - u.image.base) else .plain))

/-- How the scheduler of a link treats an egress read, by the mode, the slot and whether word 0 is covered: a slot in
flight is answered from its copy and the egress control word of its entry; word 0 at the cursor is a pull; word 0
elsewhere is answered empty with EGRESS_ORDER; other words of a slot not in flight are zeros. In STOPPING no pull is
taken and no event raised; in LOADING every answer is empty; in TRANSPARENT the read is forwarded. An answer of the
part's own stands at its read's place in the list, from whose front every complete answer leaves; each of its beats
carries RESPONSE and GOOD, the final one LAST. The egress control word of an entry holds owner MAC, its origin, index,
class and length, and 0 elsewhere. A forwarded read joins the forwarded stream behind the writes and reads there. -/
def Obligations.EgressReadsAreTreatedByTheirSlot : Prop :=
  (∀ (l : Link) (e : ReadEntry) (r : EgressRead) (v : State),
    let empty := answerRead r.id ((List.range r.count).map (fun k => if r.first + k = 7 then 0x40000000#32 else 0)) v
    let zeros := answerRead r.id (List.replicate r.count 0) v
    let cursor := (v.link l).answerCursor
    let copies := (v.link l).inFlight.find? (fun f => f.slot = r.slot)
    let inFlight := ∃ f c, copies = some f ∧ f.copy = some c
    (v.loader.mode = .active ∨ v.loader.mode = .stopping →
      (∀ f c, copies = some f → f.copy = some c → takeEgress l e r v =
        answerRead r.id (((c ++ [egressControlWord v f.entry]).drop r.first).take r.count) v) ∧
      (¬ inFlight → r.first ≠ 0 → takeEgress l e r v = zeros)) ∧
    (v.loader.mode = .active → ¬ inFlight → r.first = 0 →
      (r.slot = cursor → takeEgress l e r v = pull l r v) ∧
      (r.slot ≠ cursor → takeEgress l e r v = raise (.egressOrder l r.slot cursor) empty)) ∧
    (v.loader.mode = .stopping → ¬ inFlight → r.first = 0 → takeEgress l e r v = empty) ∧
    (v.loader.mode = .loading → takeEgress l e r v = empty) ∧
    (v.loader.mode = .transparent → takeEgress l e r v = forwardRead e v)) ∧
  (∀ (id : Nat) (ws : List Word) (v : State), ∃ beats : List Beat, beats.length = ws.length ∧
    (∀ n w, ws[n]? = some w →
      beats[n]? = some (⟨w, decide (n + 1 = ws.length), true, true⟩ : Beat)) ∧
    let rs := readyFront (v.bus.reads.map (fun r => if r.id = id then { r with progress := .ready beats } else r))
    answerRead id ws v = { v with out := v.out ++ rs.1.map .readAnswer, bus := { v.bus with reads := rs.2 } }) ∧
  (∀ first count : Nat, emptyWords first count =
    (List.range count).map (fun k => if first + k = 7 then 0x40000000#32 else 0)) ∧
  (∀ (v : State) (i : Nat), let e := v.entry i
    let w := egressControlWord v i
    bits w 0 14 = e.length % 2 ^ 14 ∧
    bits w 14 2 = (match e.cls with | .game => 0 | .interactive => 1 | .bulk => 2 | .update => 3) ∧
    bits w 16 11 = i % 2 ^ 11 ∧ bits w 27 2 = (match e.origin with | .direct => 0 | .forwarded => 1 | .marker => 2) ∧
    bits w 29 1 = 0 ∧ bits w 30 2 = 2) ∧
  ∀ (r : ReadEntry) (v : State), forwardRead r v = { v with bus := { v.bus with
    forwarded := v.bus.forwarded ++ [⟨v.bus.nextForwarded, .read r.id r.addr r.beats r.after⟩]
    nextForwarded := v.bus.nextForwarded + 1
    reads := v.bus.reads.map (fun k => if k.id = r.id then { k with progress := .forwarded } else k) } }

/-- Head cleanup at one head, by the first row of the table that applies: a DIRECT entry whose station's access is
closed is nullified BLOCKED unless exempt; one of a DEPARTING or ARRIVING station is diverted to its hold list, or
dropped HOLD_FULL; one of a RELEASING or ABSENT station is nullified NOT_HERE; any other stops the cleanup. An entry
that leaves a queue leaves it once, a drain's insertion point behind it returns to the front, and a DIRECT one lowers
the link's count of queued direct entries. A nullification writes the slot's status and frees the entry; a drop at the
hold limits is one as HOLD_FULL, with HOLD_DROP for the staging slot.
The model's choices: LINK_LOW and HOLD_DROP are raised before the slot's status write (log entry 18), and a divert's
place in a list whose ages have wrapped (log entry 38). -/
def Obligations.HeadCleanupFollowsItsTable : Prop :=
  (∀ (l : Link) (c : Cls) (n i : Nat) (is : List Nat) (v : State), v.queue l c = i :: is →
    let e := v.entry i
    let gone := leaveQueue l c i v
    let direct (k : StationId) := e.origin = .direct ∧ e.station = some k
    let closed (k : StationId) := let x := v.station k
      e.exempt = false ∧ (x.access = some .blocked ∨ x.access = some .paused) ∧
        (x.handoff = some .resident ∨ x.handoff = some .arriving ∨ x.handoff = some .departing)
    let here (k : StationId) (h : HandoffState) := (v.station k).handoff = some h
    (∀ k, direct k → closed k → cleanHead l c (n + 1) v = cleanHead l c n (nullifyEntry i .blocked gone)) ∧
    (∀ k, direct k → ¬ closed k → here k .departing ∨ here k .arriving →
      cleanHead l c (n + 1) v = cleanHead l c n
        (if holdFull gone k then dropHeld i gone else holdByStamp k i gone)) ∧
    (∀ k, direct k → ¬ closed k → here k .releasing ∨ here k .absent →
      cleanHead l c (n + 1) v = cleanHead l c n (nullifyEntry i .notHere gone)) ∧
    ((∀ k, direct k → ¬ closed k ∧ (here k .resident ∨ here k .forwarding ∨ (v.station k).handoff = none)) →
      cleanHead l c (n + 1) v = v)) ∧
  (∀ (l : Link) (c : Cls) (i : Nat) (v : State), ∃ x : State, x = { v with links := x.links } ∧
    x.link l = { v.link l with
      queues := (v.link l).queues.put c ((v.queue l c).filter (fun j => j ≠ i))
      points := (v.link l).points.filter (fun p => ¬ (p.2.1 = c ∧ p.2.2 = i)) } ∧
    (∀ k, k ≠ l → x.link k = v.link k) ∧
    leaveQueue l c i v =
      if (v.entry i).origin = .direct then setDirectQueued l ((v.link l).directQueued - 1) x else x) ∧
  ∀ (i ss : Nat) (k : Link) (a : SlotStatus) (v : State), (v.entry i).staging = some (k, ss) →
    nullifyEntry i a v = freeEntry i (writeSlotStatus k ss a v) ∧
    dropHeld i v = freeEntry i (writeSlotStatus k ss .holdFull (raise (.holdDrop k ss) v))

/-- A pull cleans the four heads, then gives strict game service while the tokens are above 0, charging them the
head's cost; else the rotation chooses and leaves its credits and pointer; where no class is eligible, the answer is
empty and credits and pointer are unchanged. The choice of a queue's head: it leaves the queue and is IN_FLIGHT on the
pull's slot; a GAME choice sets GAME_ACTIVE and restarts the quiet timer, and where that changes the flag in ACTIVE mode
the gate is evaluated; a DIRECT entry marks its station active. A marker is answered at once: its answer copy is its
buffer's address and six zeros, the cursor advances, and the read takes the words it covers of the copy and the egress
control word. Any other entry waits on the 8-beat read of its staging descriptor. Nothing else changes.
The model's choices: the quiet timer counts from the next millisecond event (log entry 8), LINK_LOW comes before the
gate's acts and these before the staging read (log entry 18), and a quiet interval field of 0 reads as 100 (log
entry 39). -/
def Obligations.PullsServeGameStrictlyThenRotate : Prop :=
  (∀ (l : Link) (r : EgressRead) (v : State),
    let c := forEach (fun k x => cleanHead l k (x.queue l k).length x) [.game, .interactive, .bulk, .update] v
    let x := c.link l
    let views : PerClass ClassView := ⟨classView c l .game, classView c l .interactive, classView c l .bulk,
      classView c l .update⟩
    (∀ i is, c.queue l .game = i :: is → 0 < x.tokens → pull l r v = chooseHead l r .game
      (c.setLink l { x with tokens := max (-65535) (x.tokens - (c.entry i).cost) })) ∧
    (c.queue l .game = [] ∨ x.tokens ≤ 0 →
      (∀ k q, rotation views x.credits x.pointer = some (k, q) →
        pull l r v = chooseHead l r k (c.setLink l { x with credits := q, pointer := k })) ∧
      (rotation views x.credits x.pointer = none → pull l r v = answerRead r.id (emptyWords r.first r.count) c)) ∧
    (∀ k, (classView c l k).eligible = true ↔ c.queue l k ≠ [] ∧
      (k = .game → x.tokens ≤ 0) ∧ (k = .update → c.game.active = false)) ∧
    (∀ k, (classView c l k).quantum = quantum c l k ∧ ((classView c l k).empty = true ↔ c.queue l k = []) ∧
      ∀ i is, c.queue l k = i :: is → (classView c l k).cost = (c.entry i).cost)) ∧
  (∀ (l : Link) (r : EgressRead) (c : Cls) (i : Nat) (is : List Nat) (v : State), v.queue l c = i :: is →
    let e := v.entry i
    let t := chooseHead l r c v
    t.queue l c = (i :: is).filter (fun j => j ≠ i) ∧
    t.entry i = { e with state := .inFlight, egressSlot := some r.slot } ∧
    (c = .game → t.game = { active := true, quiet := some (v.clock.now + 1 +
      BitVec.ofNat 32 (max 100 (min 60000 (bits (shadowWord v 0x12C) 0 16)))) }) ∧
    (c ≠ .game → t.game = v.game) ∧
    (∀ st, e.origin = .direct → e.station = some st → t.station st = { v.station st with active := true }) ∧
    (e.origin ≠ .marker →
      (t.link l).answering = some { read := r.id, slot := r.slot, entry := i, first := r.first, count := r.count } ∧
      (t.link l).inFlight = (v.link l).inFlight ++ [⟨r.slot, i, none⟩] ∧
      (t.link l).answerCursor = (v.link l).answerCursor ∧
      ∀ sl ss, e.staging = some (sl, ss) → ∃ o pre, t.bus.own = pre ++ [o] ∧
        o.access = .answerRead l ((ringsOf v sl).stagingBase + 32 * ss)) ∧
    (e.origin = .marker →
      (t.link l).answering = none ∧
      (t.link l).answerCursor = ((v.link l).answerCursor + 1) % (ringsOf v l).egressSize ∧
      ∀ b q, e.marker = some (b, q) → ∃ f ∈ (t.link l).inFlight, f.slot = r.slot ∧ f.entry = i ∧
        f.copy = some [word (policyBase v + 0x6000 + 128 * b), 0, 0, 0, 0, 0, 0]) ∧
    let gone := leaveQueue l c i v
    let taken := gone.setEntry i { e with state := .inFlight, egressSlot := some r.slot }
    let aired := taken.setLink l { taken.link l with inFlight := (taken.link l).inFlight ++ [⟨r.slot, i, none⟩] }
    let playing : State := { aired with game := { active := true, quiet := some (v.clock.now + 1 +
      BitVec.ofNat 32 (max 100 (min 60000 (bits (shadowWord v 0x12C) 0 16)))) } }
    let told := if c = .game ∧ v.game.active = false ∧ v.loader.mode = .active then evaluateGate playing
      else if c = .game then playing else aired
    let m := match e.station with
      | some st => if e.origin = .direct then told.setStation st { told.station st with active := true } else told
      | none => told
    (e.origin = .marker → ∀ b q, e.marker = some (b, q) →
      let copy := [word (policyBase v + 0x6000 + 128 * b), 0, 0, 0, 0, 0, 0]
      t = answerRead r.id (((copy ++ [egressControlWord m i]).drop r.first).take r.count)
        (m.setLink l { m.link l with
          inFlight := (m.link l).inFlight.map (fun f => if f.slot = r.slot then { f with copy := some copy } else f)
          answerCursor := ((m.link l).answerCursor + 1) % (ringsOf v l).egressSize
          answering := none })) ∧
    (e.origin ≠ .marker → ∀ sl ss, e.staging = some (sl, ss) →
      let w := m.setLink l { m.link l with
        answering := some { read := r.id, slot := r.slot, entry := i, first := r.first, count := r.count } }
      t = issue (.answerRead l ((ringsOf v sl).stagingBase + 32 * ss)) { w with bus := { w.bus with
        reads := w.bus.reads.map (fun q => if q.id = r.id then { q with progress := .answering l } else q) } }))

/-- One visit of the rotation to the class under the pointer. -/
def Obligations.RotationVisitsFollowTheTable : Prop :=
  ∀ (v : PerClass ClassView) (n : Nat) (k : PerClass Int) (c : Cls),
    let x := v.get c
    let next := match c with
      | .game => Cls.interactive | .interactive => .bulk | .bulk => .update | .update => .game
    (x.eligible = true → (x.cost : Int) ≤ k.get c →
      rotate v (n + 1) k c = some (c, k.put c (k.get c - x.cost))) ∧
    (x.eligible = true → k.get c < (x.cost : Int) →
      rotate v (n + 1) k c = rotate v n (k.put c (min 65535 (k.get c + x.quantum))) next) ∧
    (x.eligible = false → x.empty = true → rotate v (n + 1) k c = rotate v n (k.put c (min (k.get c) 0)) next) ∧
    (x.eligible = false → x.empty = false → rotate v (n + 1) k c = rotate v n k next)

/-- Where no class is eligible the rotation makes no visit, credits and pointer are unchanged, and the pull is
answered with the empty descriptor; where one is, it chooses an eligible class within 8196 visits, whatever the
credits in their range, the quanta and the costs; each quantum is the link's and class's field, from 64 to 16383. -/
def Obligations.TheRotationAlwaysChooses : Prop :=
  (∀ (v : PerClass ClassView) (k : PerClass Int) (c : Cls),
    ((∀ d, (v.get d).eligible = false) → rotation v k c = none) ∧
    ((∃ d, (v.get d).eligible = true) →
      (∀ d, (v.get d).cost ≤ 65535 ∧ 64 ≤ (v.get d).quantum ∧ -65536 ≤ k.get d ∧ k.get d ≤ 65535) →
      ∃ d q, rotation v k c = some (d, q) ∧ rotate v 8196 k c = some (d, q) ∧ (v.get d).eligible = true)) ∧
  (∀ (v : State) (l : Link) (c : Cls), 64 ≤ quantum v l c ∧ quantum v l c ≤ 16383 ∧ quantum v l c =
    max 64 (min 16383 (bits (shadowWord v (0x0C0 + 16 * linkNumber l + 4 * clsCode c)) 0 16))) ∧
  ∀ (l : Link) (r : EgressRead) (v : State), let t := pull l r v
    let c := cleanHeads l v
    (c.queue l .game = [] ∨ (c.link l).tokens ≤ 0) → (∀ d, (classView c l d).eligible = false) →
      t = answerRead r.id (emptyWords r.first r.count) c ∧
      (t.link l).credits = (v.link l).credits ∧ (t.link l).pointer = (v.link l).pointer

/-- ANSWER_READ_RETURN. Good beats give the answer: words 0 to 6 as read are kept with the entry, word 7 is the egress
control word, the cursor advances. An error-marked beat fails it: MEMORY_ERROR, the entry out of flight, nullified and
freed, the read answered empty, the cursor kept. Beats of an abandoned read go to no one.
The model's choice: MEMORY_ERROR is raised before the slot's status write (log entry 18). -/
def Obligations.AnswerReadsGiveOrFailTheAnswer : Prop :=
  (∀ (s : State) (l : Link) (os : List Outstanding) (beats : List Beat), let u := start s
    u.bus.outstanding = ⟨.answer l, beats.length, false⟩ :: os →
    exec (.answerReadReturn beats) s = .next { u with bus := { u.bus with outstanding := os } }) ∧
  ∀ (s : State) (l : Link) (os : List Outstanding) (beats : List Beat) (a : Answering), let u := start s
    u.bus.outstanding = ⟨.answer l, beats.length, true⟩ :: os → (u.link l).answering = some a →
    let v : State := { u with bus := { u.bus with outstanding := os } }
    let x := u.link l
    let copy := (beats.take 7).map (fun b => b.data)
    let answered := v.setLink l { x with
      inFlight := x.inFlight.map (fun f => if f.slot = a.slot then { f with copy := some copy } else f)
      answerCursor := (x.answerCursor + 1) % (ringsOf u l).egressSize
      answering := none }
    let left := v.setLink l { x with answering := none, inFlight := x.inFlight.filter (fun f => f.slot ≠ a.slot) }
    let ended (t : State) := if t.loader.mode = .stopping ∧ stopMayEnd t = true then endStop false t else t
    ((∀ b ∈ beats, b.good = true) → exec (.answerReadReturn beats) s = .next
      (answerRead a.read (((copy ++ [egressControlWord u a.entry]).drop a.first).take a.count) answered)) ∧
    ((∃ b ∈ beats, b.good = false) → ∀ sl ss, (u.entry a.entry).staging = some (sl, ss) →
      exec (.answerReadReturn beats) s = .next (ended (answerRead a.read (emptyWords a.first a.count)
        (freeEntry a.entry (writeSlotStatus sl ss .memoryError (raise (.memoryErrorAnswer sl ss l a.slot) left))))))

/-- EGRESS_WRITE: a write to an egress ring is absorbed. In LOADING, and on words 0 to 6, nothing follows; an error-
marked word 7 raises MEMORY_ERROR; a good word 7 on a slot not in flight, or without lane 3, raises STRAY_COMPLETION;
a completion of a DIRECT or FORWARDED entry takes it out of flight, writes SENT or FAILED, charges and frees it.
The model's readings: an error-marked word 7 raises nothing in LOADING (log entry 26), and the end of a stop comes after
the completion's own acts (log entry 18). -/
def Obligations.EgressWritesComplete : Prop :=
  ∀ (s : State) (w : UpWrite) (l : Link) (slot first : Nat), let u := start s
    Accepts u w → regionOf u (writeStart w) = .egress l slot first →
    let v := emit .writeAccepted u
    let seven := (writtenWords w)[7 - first]?
    let member := (u.link l).inFlight.find? (fun f => f.slot = slot)
    let ended (t : State) := if t.loader.mode = .stopping ∧ stopMayEnd t = true then endStop false t else t
    (u.loader.mode = .loading ∨ seven = none → exec (.egressWrite w) s = .next v) ∧
    ∀ x, u.loader.mode ≠ .loading → seven = some x →
      (x.good = false → exec (.egressWrite w) s = .next (raise (.memoryErrorBus x.addr) v)) ∧
      (x.good = true → (∀ f, member = some f → f.copy = none ∨ lane x.mask 3 = false) →
        exec (.egressWrite w) s = .next (raise (.strayCompletion l slot) v)) ∧
      (∀ f c, x.good = true → lane x.mask 3 = true → member = some f → f.copy = some c →
        let e := u.entry f.entry
        let r := bits x.data 24 4
        let left := leaveInFlight l f.slot v
        ∀ sl ss, e.origin ≠ .marker → e.staging = some (sl, ss) →
          exec (.egressWrite w) s = .next (ended (freeEntry f.entry (chargeUsage f.entry r (chargeRetries l f.entry r
            (writeSlotStatus sl ss (if bit x.data 28 then .failed else .sent) left))))))

/-- A completion of a marker, an EGRESS_WRITE too: the sends rise by one; in STOPPING the buffer and the entry are then
freed. Else SENT, and the third FAILED, free both and move the station to ABSENT with HANDOFF_DONE or MARKER_LOST; an
earlier FAILED puts the same entry at the tail of the GAME queue of link 3.
The model's choice: HANDOFF_DONE or MARKER_LOST is raised before the HANDOFF_STATE of the change (log entry 18). -/
def Obligations.MarkersAreSentUpToThreeTimes : Prop :=
  ∀ (s : State) (w : UpWrite) (l : Link) (slot first : Nat) (x : WrittenWord) (f : InFlight) (c : List Word)
    (st : StationId), let u := start s
    Accepts u w → regionOf u (writeStart w) = .egress l slot first → u.loader.mode ≠ .loading →
    (writtenWords w)[7 - first]? = some x → x.good = true → lane x.mask 3 = true →
    (u.link l).inFlight.find? (fun f => f.slot = slot) = some f → f.copy = some c →
    (u.entry f.entry).origin = .marker → (u.entry f.entry).station = some st →
    let v := chargeRetries l f.entry (bits x.data 24 4) (leaveInFlight l f.slot (emit .writeAccepted u))
    let y := v.station st
    let sends := y.markerSends + 1
    let counted := v.setStation st { y with markerSends := sends }
    let done (e : Event) : State :=
      changeState st .absent 0 (raise e (freeEntry f.entry (dropMarker st counted)))
    (u.loader.mode = .stopping → exec (.egressWrite w) s = .next
      (let t := freeEntry f.entry (dropMarker st counted)
       if stopMayEnd t = true then endStop false t else t)) ∧
    (u.loader.mode ≠ .stopping →
      (bit x.data 28 = false → exec (.egressWrite w) s = .next (done (.handoffDone st y.sequence))) ∧
      (bit x.data 28 = true → 3 ≤ sends → exec (.egressWrite w) s = .next (done (.markerLost st y.sequence))) ∧
      (bit x.data 28 = true → sends < 3 → exec (.egressWrite w) s = .next
        (joinQueue .backhaul .game f.entry counted)))

/-! ### Receive control words, signal and hints -/

/-- RECEIVE_CONTROL_WRITE. A write to a receive ring is forwarded. On a good word 7 in ACTIVE mode, a frame of kind
neither MGMT nor MARKER of a valid station that is RESIDENT, ARRIVING or DEPARTING and BLOCKED or PAUSED, with the
station and kind lanes enabled, goes out with its status field FILTERED and that lane enabled; the sample, the mark
and the marker detection follow. In other modes nothing more is done; an error-marked word 7 only raises MEMORY_ERROR.
The rewrite, whose beats count from word `k` of the slot, changes word 7 alone: its status field is FILTERED, lane 3 is
enabled, and every other bit, lane and flag is as issued.
The model's choice: MEMORY_ERROR in LOADING and STOPPING too (log entry 26). -/
def Obligations.ReceiveWritesAreInspectedAndFiltered : Prop :=
  (∀ (s : State) (w : UpWrite) (l : Link) (slot first : Nat), let u := start s
    Accepts u w → regionOf u (writeStart w) = .receive l slot first →
    let seven := (writtenWords w)[7 - first]?
    let through (beats : List WriteBeat) : State :=
      forwardWrite (writeStart w) beats (emit .writeAccepted u)
    let filtered (x : WrittenWord) := ∃ st : StationId, lane x.mask 1 = true ∧ lane x.mask 3 = true ∧
      bits x.data 8 8 = st.val ∧ (u.station st).valid = true ∧
      ((u.station st).handoff = some .resident ∨ (u.station st).handoff = some .arriving ∨
        (u.station st).handoff = some .departing) ∧
      ((u.station st).access = some .blocked ∨ (u.station st).access = some .paused) ∧
      bits x.data 24 2 ≠ 1 ∧ bits x.data 24 2 ≠ 2
    (seven = none → exec (.receiveControlWrite w) s = .next (through (forwardedBeats w))) ∧
    ∀ x, seven = some x →
      (x.good = false → exec (.receiveControlWrite w) s = .next
        (raise (.memoryErrorBus x.addr) (through (forwardedBeats w)))) ∧
      (x.good = true → u.loader.mode ≠ .active →
        exec (.receiveControlWrite w) s = .next (through (forwardedBeats w))) ∧
      (x.good = true → u.loader.mode = .active → ∀ f : Bool, (f = true ↔ filtered x) →
        exec (.receiveControlWrite w) s = .next
          (detectReceive l x.data x.mask (markReceive f x.data x.mask (sampleReceive l x.data x.mask
            (through (if f = true then rewriteBeats first (forwardedBeats w) else forwardedBeats w)))))) ∧
      bits (filteredWord x.data) 26 2 = 1 ∧ bits (filteredWord x.data) 0 26 = bits x.data 0 26) ∧
  ∀ (k : Nat) (bs : List WriteBeat), (rewriteBeats k bs).length = bs.length ∧
    ∀ (n : Nat) (b : WriteBeat), bs[n]? = some b → ∃ c, (rewriteBeats k bs)[n]? = some c ∧
      (k + n ≠ 7 → c = b) ∧
      (k + n = 7 → c.beat = { b.beat with data := c.beat.data } ∧ bits c.beat.data 26 2 = 1 ∧
        (∀ j, j ≠ 26 → j ≠ 27 → bit c.beat.data j = bit b.beat.data j) ∧
        ∀ j, lane c.mask j = true ↔ j = 3 ∨ lane b.mask j = true)

/-- What the three blocks take from a receive control word that names a valid station: a sample needs the RSSI lane, a
measured RSSI and a kind other than MARKER; the mark needs a kind other than MARKER and no rewrite; a marker is
detected on link 3 with its sequence lane enabled. A word that names no valid station, or not its lane, gives none of
them. A sample on a station's home link counts the dwell run, to 255 and back to 0, and raises STEER_HINT where the
flag is armed, the station valid and RESIDENT, the run at the dwell count, and the neighbour strong enough; the flag
is then disarmed. A sample on another link leaves the run. The flag is armed again at the re-arm point. A marker
detected for a valid station: ARRIVING with its working sequence, the timer stops and an ARRIVAL drain to RESIDENT
begins; ARRIVING with another, STALE_MARKER; in any other state it is remembered as the early marker. A threshold byte
of 1 to 127 acts as −1 and a neighbour byte of 0 to 127 is none; from 128 each is its signed value. -/
def Obligations.ReceiveWordsSampleMarkAndDetect : Prop :=
  (∀ (l : Link) (d : Word) (m : Lanes) (f : Bool) (v : State),
    let marker := lane m 3 = true ∧ bits d 24 2 = 2
    let named (st : StationId) := lane m 1 = true ∧ bits d 8 8 = st.val ∧ (v.station st).valid = true
    ((∀ st, ¬ named st) →
      sampleReceive l d m v = v ∧ markReceive f d m v = v ∧ detectReceive l d m v = v) ∧
    ∀ st, named st →
      (lane m 0 = true → 128 ≤ bits d 0 8 → ¬ marker →
        sampleReceive l d m v = takeSample l st ((bits d 0 8 : Int) - 256) v) ∧
      (lane m 0 = false ∨ bits d 0 8 < 128 ∨ marker → sampleReceive l d m v = v) ∧
      (f = false → ¬ marker → markReceive f d m v = v.setStation st { v.station st with active := true }) ∧
      (f = true ∨ marker → markReceive f d m v = v) ∧
      (l = .backhaul → marker → lane m 2 = true →
        detectReceive l d m v = detectMarker st (BitVec.ofNat 8 (bits d 16 8)) v) ∧
      (l ≠ .backhaul ∨ ¬ marker ∨ lane m 2 = false → detectReceive l d m v = v)) ∧
  (∀ (l : Link) (st : StationId) (x : Int) (v : State), let y := v.station st
    let t := takeSample l st x v
    let sig := smooth y.signal x
    let run := if y.record.home = l then (if sig < 16 * thresholdOf y.record then min 255 (y.dwellRun + 1) else 0)
      else y.dwellRun
    let raised := y.record.home = l ∧ y.hintArmed = true ∧ y.valid = true ∧ y.handoff = some .resident ∧
      y.record.dwell ≤ run ∧ ∃ n, neighbourOf y.record = some n ∧ sig + 16 * y.record.margin ≤ 16 * n
    let armed : Prop := (y.hintArmed = true ∧ ¬ raised) ∨
      16 * (thresholdOf y.record + y.record.hysteresis) ≤ sig
    ∃ b : Bool, (b = true ↔ armed) ∧
      (¬ raised → t = v.setStation st { y with signal := some sig, dwellRun := run, hintArmed := b }) ∧
      (raised → ∀ n, neighbourOf y.record = some n →
        t = raise (.steerHint st sig n l) (v.setStation st { y with signal := some sig, dwellRun := run,
                                                                    hintArmed := b }))) ∧
  (∀ (st : StationId) (q : Byte) (v : State), let x := v.station st
    (x.handoff = some .arriving → q = x.sequence → detectMarker st q v =
      changeWith st .resident .arrivalDrain (v.setStation st { x with timer := none })) ∧
    (x.handoff = some .arriving → q ≠ x.sequence → detectMarker st q v = raise (.staleMarker st q x.sequence) v) ∧
    (x.handoff ≠ some .arriving → detectMarker st q v = v.setStation st { x with earlyMarker := some q })) ∧
  ∀ r : StationRecord,
    (1 ≤ r.threshold → r.threshold < 128 → thresholdOf r = -1) ∧
    (128 ≤ r.threshold → r.threshold < 256 → thresholdOf r = r.threshold - 256) ∧
    (r.neighbour < 128 → neighbourOf r = none) ∧
    (128 ≤ r.neighbour → r.neighbour < 256 → neighbourOf r = some (r.neighbour - 256 : Int))

/-- A sample x smooths the signal: 16x where it is absent, else S + ⌊(16x − S) / 8⌋, which lies between S and 16x, so
that S stays within −2048 to −16. Under a constant level it falls where it stands above 16x, and it rests exactly at
16x − 7 to 16x. It is absent after reset and after a validation, and kept by an invalidation and by a stop. -/
def Obligations.SamplesSmoothTheSignal : Prop :=
  (∀ x : Int, smooth none x = 16 * x) ∧
  (∀ v x q r : Int, 16 * x - v = 8 * q + r → 0 ≤ r → r < 8 → smooth (some v) x = v + q) ∧
  (∀ v x : Int, min v (16 * x) ≤ smooth (some v) x ∧ smooth (some v) x ≤ max v (16 * x)) ∧
  (∀ (o : Option Int) (x : Int), -128 ≤ x → x ≤ -1 → (∀ v, o = some v → -2048 ≤ v ∧ v ≤ -16) →
    -2048 ≤ smooth o x ∧ smooth o x ≤ -16) ∧
  (∀ v x : Int, (16 * x < v → smooth (some v) x < v) ∧
    (smooth (some v) x = v ↔ 0 ≤ 16 * x - v ∧ 16 * x - v ≤ 7)) ∧
  (∀ (plc : BitVec 3) (s : State) (st : StationId), ∃ t, exec (.resetInput plc) s = .next t ∧
    (t.station st).signal = none) ∧
  (∀ (r : StationRecord) (n : Stamp) (y : Station), (validated r n y).signal = none ∧
    (invalidated r y).signal = y.signal) ∧
  ∀ (k st : StationId) (v : State), ((stopStation k v).station st).signal = (v.station st).signal

/-! ### Commits -/

/-- A good write of a station's control word in ACTIVE mode is a commit, whichever of the commit rows it is: the write
is merged, the merged record judged, and the station's status written back, with a NONE write behind it where the
request is not NONE. The record is refused REFUSED_INVALID, and nothing else changes, for an unknown request, a dwell
count or threshold of 0, a request with valid clear, or an unknown presence at a validation. COMMIT of a valid station
with valid set and request NONE: the record is taken, the bonus grant becomes the working count, access is evaluated,
with ACCESS_CHANGE where it changes, and the result is ACCEPTED. Dwell run, hint flag, signal, usage and handoff state
stay. A record's fields stand at their bytes and bits of its 64 bytes as 11.2 gives them, and its control word is bytes
60 to 63.
The model's reading: the commit stands though another beat of its write is error-marked (log entry 46). -/
def Obligations.ControlWordWritesAreCommits : Prop :=
  ((∀ (s : State) (w : UpWrite) (p : PolicyWord) (st : StationId), let u := start s
    let m := merged u w
    let r := recordOf m.shadow st
    u.loader.mode = .active → Carries u w p → controlWordOf p.off = some st →
    ∀ c ∈ [Instr.commit w, .validate w, .invalidate w, .depart w, .evict w, .forward w, .abort w, .release w,
        .arrive w, .adopt w],
      exec c s = .next (issueStationStatus st (if r.request = 0 then 0 else 1) (judgeRecord st r m))) ∧
  ∀ (st : StationId) (r : StationRecord) (v : State), let x := v.station st
    7 < r.request ∨ r.dwell = 0 ∨ r.threshold = 0 ∨ (r.valid = false ∧ r.request ≠ 0) ∨
      (r.valid = true ∧ x.valid = false ∧ 1 < r.presence) →
    judgeRecord st r v = v.setStation st { x with lastResult := .refusedInvalid }) ∧
  (∀ (s : State) (w : UpWrite) (p : PolicyWord) (st : StationId), let u := start s
    let m := merged u w
    let r := recordOf m.shadow st
    let x := m.station st
    u.loader.mode = .active → Carries u w p → controlWordOf p.off = some st → x.valid = true →
    r.valid = true → r.dwell ≠ 0 → r.threshold ≠ 0 → r.request = 0 →
    let now := some (accessOf m r (min r.grant 1440))
    let e := if now = x.access then m else raise (.accessChange st x.access now) m
    ∃ t, exec (.commit w) s = .next t ∧ t = { issueStationStatus st 0 e with stations := t.stations } ∧
      t.station st = { x with record := r, bonus := min r.grant 1440, access := now, lastResult := .accepted } ∧
      ∀ k, k ≠ st → t.station k = m.station k) ∧
  (∀ (t : Table Word) (st : StationId), let r := recordOf t st
    let byte (n : Nat) := bits (Table.read 0 t ((0x2000 + 64 * st.val + n) / 4)) (8 * (n % 4)) 8
    r.address.toNat = byte 0 + 256 * byte 1 + 256 ^ 2 * byte 2 + 256 ^ 3 * byte 3 + 256 ^ 4 * byte 4 +
      256 ^ 5 * byte 5 ∧
    r.rate = byte 6 + 256 * byte 7 ∧ r.profile = byte 8 % 32 ∧ (r.pause = true ↔ byte 9 % 2 = 1) ∧
    linkNumber r.home = byte 9 / 2 % 4 ∧ r.grant = byte 10 + 256 * byte 11 ∧ r.threshold = byte 12 ∧
    r.hysteresis = byte 13 % 128 ∧ r.margin = byte 14 % 128 ∧ r.dwell = byte 15 ∧ r.neighbour = byte 16 ∧
    r.presence = byte 17 ∧ r.request = byte 60 ∧ r.sequence.toNat = byte 61 ∧ (r.valid = true ↔ byte 62 % 2 = 1)) ∧
  ∀ (off : Nat) (st : StationId),
    controlWordOf off = some st ↔ ∃ k, k < 4 ∧ off = 0x2000 + 64 * st.val + 60 + k

/-- The table of R88, the windows and profiles of R86 and R87, and the maintenance profile of R146. The access state of
a record at the clock's minute: PAUSED by the pause flag; else OPEN for profiles 16 to 31 and where the profile allows;
else BONUS with a bonus above 0, and BLOCKED with none. A profile allows by its unsynced access (bit 1 of word 0, 0 for
ALLOW) while the clock is unset; while it is set, by its default access (bit 0, 0 for ALLOW) outside its valid windows,
and by the inverse of that where a valid window holds the minute. The maintenance profile is evaluated in the same way:
16 to 31 allow at every minute, and 32 to 255 never. A station that is invalidated, or that a reset or a load leaves
invalid, has no access state, and no access state reads NONE in the status area. -/
def Obligations.AccessFollowsPauseProfileAndBonus : Prop :=
  (∀ (v : State) (r : StationRecord) (b : Nat),
    (r.pause = true → accessOf v r b = .paused) ∧
    (r.pause = false → 16 ≤ r.profile ∨ profileAllows v r.profile = true → accessOf v r b = .openAccess) ∧
    (r.pause = false → r.profile < 16 → profileAllows v r.profile = false →
      accessOf v r b = if 0 < b then .bonus else .blocked)) ∧
  (∀ (v : State) (p : Nat), let w (k : Nat) := shadowWord v (0x4000 + 64 * p + 4 * k)
    let inside := ∃ i, i < 8 ∧ bit (w (1 + i)) 31 = true ∧
      bits (w (1 + i)) 0 14 ≤ 10079 ∧ bits (w (1 + i)) 16 14 ≤ 10079 ∧
      let a := bits (w (1 + i)) 0 14
      let b := bits (w (1 + i)) 16 14
      let n := v.clock.minute
      ((a < b ∧ a ≤ n ∧ n < b) ∨ (b < a ∧ (a ≤ n ∨ n < b)))
    (profileAllows v p = true ↔
      if v.clock.isSet = true then (if inside then bit (w 0) 0 = true else bit (w 0) 0 = false)
      else bit (w 0) 1 = false)) ∧
  (∀ v : State, let i := bits (shadowWord v 0x18C) 0 8
    (i < 16 → maintenanceAllows v = profileAllows v i) ∧ (16 ≤ i → i < 32 → maintenanceAllows v = true) ∧
    (32 ≤ i → maintenanceAllows v = false)) ∧
  (∀ (r : StationRecord) (n : Stamp) (y : Station), Station.initial.access = none ∧ (invalidated r y).access = none ∧
    ((loadedStation r n y).valid = false → (loadedStation r n y).access = none)) ∧
  ∀ y : Station, y.access = none → bits (wordAt (stationStatusWords y) 0) 16 8 = 0

/-- VALIDATE: a commit with valid set of an invalid station. It takes the record and its initial presence, with usage
0, no signal, dwell run 0, the hint armed, the mark clear, the bonus grant, no timer and no early marker; its counts
merge into the carried count under a new validation stamp; access is evaluated without an event. Then the request, if
any, is judged.
The model's reading: the commit stands though another beat of its write is error-marked (log entry 46). -/
def Obligations.ValidationsStartTheStation : Prop :=
  ∀ (s : State) (w : UpWrite) (p : PolicyWord) (st : StationId), let u := start s
    let m := merged u w
    let r := recordOf m.shadow st
    let x := m.station st
    u.loader.mode = .active → Carries u w p → controlWordOf p.off = some st → x.valid = false →
    r.valid = true → r.dwell ≠ 0 → r.threshold ≠ 0 → r.presence ≤ 1 → r.request ≤ 7 →
    ∃ b, exec (.validate w) s = .next (issueStationStatus st (if r.request = 0 then 0 else 1)
        (match requestOf r.request with
          | some q => judgeRequest st q b
          | none => b.setStation st { b.station st with lastResult := .accepted })) ∧
      b = { m with stations := b.stations } ∧ (∀ k, k ≠ st → b.station k = m.station k) ∧
      b.station st = {
        valid := true, record := r, lastResult := x.lastResult, usage := 0, signal := none, dwellRun := 0,
        hintArmed := true, active := false, access := some (accessOf m r (min r.grant 1440)),
        bonus := min r.grant 1440, handoff := some (if r.presence = 0 then .resident else .absent), holdList := [],
        operation := .idle, movedFrom := .resident, moved := 0, sequence := r.sequence, timer := none,
        forwardCount := 0, carriedCount := x.carriedCount + x.forwardCount,
        validationStamp := m.admission.stampCounter, earlyMarker := none, markerPhase := .none,
        markerBuffer := none, markerSends := 0 }

/-- INVALIDATE: a commit with valid clear. An invalid station takes the record; a RESIDENT or ABSENT one has its queued
DIRECT and FORWARDED entries nullified NOT_HERE and becomes invalid, its usage, signal, hint flag, bonus and counts kept
and every other field of its handoff cleared; any other is refused REFUSED_STATE and keeps its record.
The model's choices: the commit stands though another beat of its write is error-marked (log entry 46), the order in
which the entries are nullified (log entry 18), no service taken between their frees (log entry 4), and a validation
stamp of 0, by which the frees of its FORWARDED entries are still judged (log entry 22). -/
def Obligations.InvalidationsClearTheStation : Prop :=
  ∀ (s : State) (w : UpWrite) (p : PolicyWord) (st : StationId), let u := start s
    let m := merged u w
    let r := recordOf m.shadow st
    let x := m.station st
    u.loader.mode = .active → Carries u w p → controlWordOf p.off = some st →
    r.valid = false → r.dwell ≠ 0 → r.threshold ≠ 0 → r.request = 0 →
    (x.valid = false → exec (.invalidate w) s = .next (issueStationStatus st 0
      (m.setStation st { x with record := r, lastResult := .accepted }))) ∧
    (x.valid = true → x.handoff = some .resident ∨ x.handoff = some .absent →
      let e := forEach (nullifyQueued .notHere)
        (queuedWhere m (fun e => e.station = some st && !(e.origin = .marker))) m
      ∃ t, exec (.invalidate w) s = .next t ∧ t = { issueStationStatus st 0 e with stations := t.stations } ∧
        (∀ k, k ≠ st → t.station k = e.station k) ∧
        (let y := t.station st
         y.valid = false ∧ y.record = r ∧ y.lastResult = .accepted ∧ y.handoff = none ∧ y.access = none ∧
         y.timer = none ∧ y.earlyMarker = none ∧ y.holdList = [] ∧ y.operation = .idle ∧ y.active = false ∧
         y.movedFrom = .resident ∧ y.moved = 0 ∧ y.sequence = 0 ∧ y.validationStamp = 0 ∧ y.markerPhase = .none ∧
         y.markerBuffer = none ∧ y.markerSends = 0 ∧
         y.usage = x.usage ∧ y.signal = x.signal ∧ y.dwellRun = x.dwellRun ∧ y.hintArmed = x.hintArmed ∧
         y.bonus = x.bonus ∧ y.forwardCount = (e.station st).forwardCount ∧ y.carriedCount = (e.station st).carriedCount)) ∧
    (x.valid = true → x.handoff ≠ some .resident → x.handoff ≠ some .absent →
      exec (.invalidate w) s = .next (issueStationStatus st 0
        (m.setStation st { x with lastResult := .refusedState })))

/-! ### Handoff -/

/-- DEPART, EVICT, FORWARD, ABORT, RELEASE, ARRIVE and ADOPT, each in the handoff states that accept it: the record is
taken and access evaluated, then the request has its effect with the result ACCEPTED, and the status write-back and
the NONE write follow. A request in a handoff state that does not accept it is refused: the parameters of the commit
stand, access is evaluated on them, and with HANDOFF_REFUSED the result is REFUSED_STATE, while the station keeps its
handoff state, timer, early marker and sequence. An EVICT nullifies on links 0 to 3, GAME to UPDATE, head to tail.
The model's choices: the commit stands though another beat of its write is error-marked (log entry 46), the arrival
timer counts from the next millisecond event (log entry 8), an interval field of 0 reads as 100 (log entry 39),
ACCESS_CHANGE comes before the acts of the request, an EVICT's nullifications before those of its change, and a
RELEASE's marker fill after them (log entry 18), and no service is taken between the frees of an EVICT (log entry 4). -/
def Obligations.RequestsAreJudgedByTheHandoffState : Prop :=
  (∀ (s : State) (w : UpWrite) (p : PolicyWord) (st : StationId) (h : HandoffState), let u := start s
    let m := merged u w
    let r := recordOf m.shadow st
    let x := m.station st
    u.loader.mode = .active → Carries u w p → controlWordOf p.off = some st → x.valid = true → x.handoff = some h →
    r.valid = true → r.dwell ≠ 0 → r.threshold ≠ 0 →
    let v := evaluateAccess st (m.setStation st { x with record := r, bonus := min r.grant 1440 })
    let y := v.station st
    let stopped := v.setStation st { y with timer := none }
    let does (c : Instr) (t : State) : Prop := exec c s = .next
      (issueStationStatus st 1 (t.setStation st { t.station st with lastResult := .accepted }))
    let evicted := queuedWhere v (fun e => e.station = some st && e.origin = .direct)
    let sequenced := v.setStation st { y with sequence := r.sequence, earlyMarker := none }
    (r.request = 1 → h = .resident → does (.depart w) (changeWith st .departing .sweep sequenced)) ∧
    (r.request = 2 → h = .resident → does (.evict w) (changeState st .absent evicted.length
      (forEach (nullifyQueued .notHere) evicted v))) ∧
    (r.request = 2 → h = .departing → does (.evict w) (changeWith st .absent .nullifyDrain stopped)) ∧
    (r.request = 3 → h = .departing → does (.forward w) (changeWith st .forwarding .forwardDrain stopped)) ∧
    (r.request = 4 → h = .departing → does (.abort w) (changeWith st .resident .returnDrain stopped)) ∧
    (r.request = 4 → h = .forwarding → does (.abort w) (changeState st .resident 0 stopped)) ∧
    (r.request = 4 → h = .arriving → does (.abort w) (changeWith st .absent .nullifyDrain stopped)) ∧
    (r.request = 5 → h = .forwarding → does (.release w) (testEmission st (changeState st .releasing 0 stopped))) ∧
    (r.request = 6 → h = .absent → y.earlyMarker = some r.sequence →
      does (.arrive w) (changeState st .resident 0 sequenced)) ∧
    (r.request = 6 → h = .absent → y.earlyMarker ≠ some r.sequence →
      let t := changeState st .arriving 0 sequenced
      does (.arrive w) (t.setStation st { t.station st with
        timer := some (.arrival, t.clock.now + 1 +
          BitVec.ofNat 32 (max 100 (min 10000 (bits (shadowWord t 0x128) 0 16)))) })) ∧
    (r.request = 7 → h = .absent → does (.adopt w) (changeState st .resident 0 v)) ∧
    (r.request = 7 → h = .arriving → does (.adopt w) (changeWith st .resident .arrivalDrain stopped)) ∧
    (let now := some (accessOf m r (min r.grant 1440))
     v = { (if now = x.access then m else raise (.accessChange st x.access now) m) with stations := v.stations } ∧
     y = { x with record := r, bonus := min r.grant 1440, access := now } ∧ ∀ k, k ≠ st → v.station k = m.station k) ∧
    ∀ q, requestOf r.request = some q → requestEffect h q st = none →
      ∀ c ∈ [Instr.depart w, .evict w, .forward w, .abort w, .release w, .arrive w, .adopt w],
        exec c s = .next (issueStationStatus st 1 ((raise (.handoffRefused st q (some h)) v).setStation st
          { y with lastResult := .refusedState }))) ∧
  (∀ (h : HandoffState) (q : Request) (st : StationId) (v : State), let x := v.station st
    x.handoff = some h →
    (requestEffect h q st = none ↔ ¬ (match h with
      | .resident => q = .depart ∨ q = .evict
      | .departing => q = .evict ∨ q = .forward ∨ q = .abort
      | .forwarding => q = .abort ∨ q = .release
      | .releasing => False
      | .absent => q = .arrive ∨ q = .adopt
      | .arriving => q = .abort ∨ q = .adopt)) ∧
    (requestEffect h q st = none → judgeRequest st q v = (raise (.handoffRefused st q (some h)) v).setStation st
      { x with lastResult := .refusedState })) ∧
  (∀ (n : Nat) (q : Request), requestOf n = some q ↔ requestCode q = n) ∧
  ∀ (p : Entry → Bool) (l : Link) (c : Cls) (i : Nat) (a : SlotStatus) (v : State),
    queuedWhere v p = [Link.wired, .radioA, .radioB, .backhaul].flatMap (fun l =>
      [Cls.game, .interactive, .bulk, .update].flatMap (fun c =>
        ((v.queue l c).filter (fun i => p (v.entry i))).map (fun i => (l, c, i)))) ∧
    nullifyQueued a (l, c, i) v = nullifyEntry i a (leaveQueue l c i v)

/-- SWEEP_STEP of a sweeping station in ACTIVE mode. Where none of its QUEUED DIRECT entries stands on links 0 to 2
the sweep ends: the hold timer starts and HANDOFF_STATE carries the count. Else the oldest of them all, by its stamp,
leaves its queue and joins the hold list right behind the last older entry: behind every older one and, in a list in
stamp order, before every newer one. At
128 entries held or 512 in the pool the newest of the held entries and it is nullified HOLD_FULL: a newer held one
makes way, and with none newer it is dropped itself. The count rises by one for the entry taken and by one for a held
one nullified in its place. Of any two entries one is the older, and never both.
The model's choices: the hold timer counts from the next millisecond event (log entry 8), the place in a list whose
ages have wrapped (log entry 38), an entry of its own that a sweep displaces counted twice (log entry 40), LINK_LOW
raised first (log entry 18), and an interval field of 0 read as 100 (log entry 39). -/
def Obligations.SweepStepsHoldTheOldestEntry : Prop :=
  (∀ (st : StationId) (s : State), let u := start s
    let x := u.station st
    let ended := u.setStation st { x with
      timer := some (.hold, u.clock.now + 1 +
        BitVec.ofNat 32 (max 100 (min 10000 (bits (shadowWord u 0x120) 0 16)))), operation := .idle }
    let among (l : Link) (c : Cls) (i : Nat) := l ≠ .backhaul ∧ i ∈ u.queue l c ∧ (u.entry i).station = some st ∧
      (u.entry i).origin = .direct
    (u.loader.mode ≠ .active ∨ x.operation ≠ .sweep → exec (.sweepStep st) s = .next u) ∧
    (u.loader.mode = .active → x.operation = .sweep → (∀ l c i, ¬ among l c i) →
      ∃ t, exec (.sweepStep st) s = .next t ∧ (∀ k, t.station k = ended.station k) ∧
        t = { raise (.handoffState st x.movedFrom (handoffOf u st) x.sequence x.moved) u with
          stations := t.stations }) ∧
    (u.loader.mode = .active → x.operation = .sweep → (∃ l c i, among l c i) →
      ∃ l c i, among l c i ∧ (∀ k d j, among k d j → j ≠ i → olderEntry u i j = true) ∧
        let left := leaveQueue l c i u
        let v := left.setStation st { left.station st with moved := x.moved + 1 }
        let held := (v.station st).holdList
        let full := 128 ≤ held.length ∨ 512 ≤ holdCount v
        (¬ full → exec (.sweepStep st) s = .next (holdByStamp st i v)) ∧
        (full → held = [] → exec (.sweepStep st) s = .next (dropHeld i v)) ∧
        (full → held ≠ [] → ∃ j ∈ held, (∀ k ∈ held, k ≠ j → olderEntry v k j = true) ∧
          (olderEntry v i j = true →
            let twice := v.setStation st { v.station st with moved := x.moved + 2 }
            exec (.sweepStep st) s = .next (holdByStamp st i (dropHeld j
              (twice.setStation st { twice.station st with holdList := held.filter (fun k => k ≠ j) })))) ∧
          (olderEntry v i j = false → exec (.sweepStep st) s = .next (dropHeld i v))))) ∧
  (∀ (st : StationId) (i : Nat) (v : State), let t := holdByStamp st i v
    let q := (v.station st).holdList
    t = { v with entries := t.entries, stations := t.stations } ∧
    t.entry i = { v.entry i with state := .held, egressSlot := none } ∧ (∀ j, j ≠ i → t.entry j = v.entry j) ∧
    (∀ k, k ≠ st → t.station k = v.station k) ∧
    ∃ pre post, q = pre ++ post ∧ t.station st = { v.station st with holdList := pre ++ i :: post } ∧
      (∀ j ∈ post, olderEntry v j i = false ∧ (j ≠ i → olderEntry v i j = true)) ∧
      (∀ j ∈ pre.getLast?, olderEntry v j i = true) ∧
      (q.Pairwise (fun a b => olderEntry v a b = true) → ∀ j ∈ pre, olderEntry v j i = true)) ∧
  ∀ (v : State) (i j : Nat), let age (k : Nat) := (v.admission.stampCounter - (v.entry k).stamp).toNat
    olderEntry v i j = true ↔ age j < age i ∨ (age i = age j ∧ i < j)

/-- DRAIN_STEP of a draining station in ACTIVE mode. The entry at the head of the hold list goes where its drain sends
it: FORWARD to the backhaul's tail, as FORWARDED at its new cost; RETURN to its queue's insertion point; ARRIVAL to
its queue's tail; NULLIFY to NOT_HERE. An empty list ends the drain with HANDOFF_STATE; a FORWARD drain starts the
timer. A placement at a station's insertion point puts the entry, QUEUED, at the front of the queue, or right behind
the entry placed there before, and the point follows it.
The model's choices: the forward timer counts from the next millisecond event (log entry 8), an interval field of 0 reads
as 500 (log entry 39), and the defaults for a missing staging slot and handoff state (log entry 36). -/
def Obligations.DrainStepsPlaceTheHead : Prop :=
  (∀ (st : StationId) (s : State), let u := start s
    let x := u.station st
    let draining := x.operation = .forwardDrain ∨ x.operation = .returnDrain ∨ x.operation = .arrivalDrain ∨
      x.operation = .nullifyDrain
    (u.loader.mode ≠ .active ∨ ¬ draining → exec (.drainStep st) s = .next u) ∧
    (u.loader.mode = .active → draining → x.holdList = [] →
      let timer := if x.operation = .forwardDrain then
          some (.forward, u.clock.now + 1 +
            BitVec.ofNat 32 (max 500 (min 60000 (bits (shadowWord u 0x124) 0 16))))
        else x.timer
      ∃ t, exec (.drainStep st) s = .next t ∧ t.station st = { x with timer := timer, operation := .idle } ∧
        (∀ k, k ≠ st → t.station k = u.station k) ∧
        t = { raise (.handoffState st x.movedFrom (handoffOf u st) x.sequence x.moved) (clearPoints st u) with
          stations := t.stations }) ∧
    (u.loader.mode = .active → ∀ i is, x.holdList = i :: is →
      let v := u.setStation st { x with holdList := (i :: is).filter (fun j => j ≠ i), moved := x.moved + 1 }
      let e := u.entry i
      let home := (e.staging.map Prod.fst).getD .wired
      ∃ v', v'.station st = v.station st ∧ (∀ k, k ≠ st → v'.station k = u.station k) ∧
        v' = { u with stations := v'.stations } ∧
        (x.operation = .forwardDrain →
          let f := v'.setEntry i { e with origin := .forwarded, cost := forwardedCost u e.length }
          exec (.drainStep st) s = .next (joinQueue .backhaul e.cls i
            (f.setStation st { f.station st with forwardCount := (f.station st).forwardCount + 1 }))) ∧
        (x.operation = .returnDrain → exec (.drainStep st) s = .next (joinAtPoint st home e.cls i v')) ∧
        (x.operation = .arrivalDrain → exec (.drainStep st) s = .next (joinQueue home e.cls i v')) ∧
        (x.operation = .nullifyDrain → exec (.drainStep st) s = .next (nullifyEntry i .notHere v')))) ∧
  (∀ (st : StationId) (v : State), let t := clearPoints st v
    t = { v with links := t.links } ∧
    ∀ l, t.link l = { v.link l with points := (v.link l).points.filter (fun p => p.1 ≠ st) }) ∧
  ∀ (st : StationId) (l : Link) (c : Cls) (i : Nat) (v : State), ∃ (x : State) (q : List Nat),
    let behind (j : Nat) := ∃ p, (v.link l).points.find? (fun p => p.1 = st && p.2.1 = c) = some p ∧ p.2.2 = j
    x = { v with entries := x.entries, links := x.links } ∧
    x.entry i = { v.entry i with state := .queued, egressSlot := none } ∧ (∀ j, j ≠ i → x.entry j = v.entry j) ∧
    x.link l = { v.link l with
      queues := (v.link l).queues.put c q
      points := (st, c, i) :: (v.link l).points.filter (fun p => ¬ (p.1 = st ∧ p.2.1 = c)) } ∧
    (∀ k, k ≠ l → x.link k = v.link k) ∧
    ((∀ j, ¬ behind j) → q = i :: v.queue l c) ∧
    (∀ j pre post, behind j → v.queue l c = pre ++ j :: post → j ∉ pre → q = pre ++ j :: i :: post) ∧
    joinAtPoint st l c i v =
      if (v.entry i).origin = .direct then setDirectQueued l ((v.link l).directQueued + 1) x else x

/-- MARKER_FILL_END, MARKER_BUFFER_SERVED and MARKER_ENTRY_SERVED. At the end of a fill the station takes the head of
the free set for its marker, or waits for an entry; in STOPPING its buffer is freed. A freed buffer goes to the first
station waiting for one, and a release, with no link stalled, to the first waiting for an entry. Where none of these
is due, nothing happens. A marker's fill and its entry: the buffer at the policy base + 0x6000 + 128 times its number
is written with the station's address in bytes 0 to 5, the working sequence in byte 6 and zeros; the entry is of class
GAME, length 64, exempt, with a new stamp, at the tail of the GAME queue of link 3. A station emits in ACTIVE mode,
RELEASING, at forward count 0 and phase NONE, and only so: its sends become 0, and it takes the lowest free buffer,
whose fill begins, or waits for one at the tail of the list. A marker that is dropped frees its buffer.
The model's choices, for states no run reaches (log entry 36): a fill that ends in TRANSPARENT or LOADING only leaves
the port idle, and the entry of a station without a buffer names buffer 0. When the two services are taken, and a
release before a freed buffer, is the model's choice too (log entry 4). -/
def Obligations.MarkersTakeBuffersAndEntries : Prop :=
  ((∀ (s : State) (st : StationId), let u := start s
    u.bus.port = .fill st →
    let v : State := { u with bus := { u.bus with port := .idle } }
    let dropped := dropMarker st v
    (u.loader.mode = .active → ∀ i is, u.admission.freeSet = i :: is →
      exec .markerFillEnd s = .next (takeMarkerEntry st i v)) ∧
    (u.loader.mode = .active → u.admission.freeSet = [] → exec .markerFillEnd s = .next
      { v.setStation st { v.station st with markerPhase := .waitEntry } with
        handoff := { v.handoff with pendingMarkers := v.handoff.pendingMarkers ++ [st] } }) ∧
    (u.loader.mode = .stopping → exec .markerFillEnd s = .next
      (if stopMayEnd dropped = true then endStop false dropped else dropped))) ∧
  (∀ (s : State) (b : Nat) (pre post : List StationId) (st : StationId), let q : State := { s with out := [] }
    q.loader.mode = .active → (∀ a, a < b → a ∈ q.handoff.busyBuffers) → b ∉ q.handoff.busyBuffers → b < 8 →
    q.handoff.pendingMarkers = pre ++ st :: post → (∀ k ∈ pre, (q.station k).markerPhase ≠ .waitBuffer) →
    (q.station st).markerPhase = .waitBuffer →
    exec .markerBufferServed s = .next (beginFill st b (leavePending st q))) ∧
  (∀ (s : State) (i : Nat) (is : List Nat) (pre post : List StationId) (st : StationId),
    let q : State := { s with out := [] }
    q.loader.mode = .active → 0 < q.admission.releases → q.admission.freeSet = i :: is →
    (∀ l, (q.link l).stall = none) → q.handoff.pendingMarkers = pre ++ st :: post →
    (∀ k ∈ pre, (q.station k).markerPhase ≠ .waitEntry) → (q.station st).markerPhase = .waitEntry →
    let t := takeMarkerEntry st i { leavePending st q with
      admission := { q.admission with releases := q.admission.releases - 1 } }
    exec .markerEntryServed s = .next
      (if entryAwaited t then t else { t with admission := { t.admission with releases := 0 } })) ∧
  ∀ s : State, let q : State := { s with out := [] }
    let u := start s
    (q.loader.mode ≠ .active ∨ (∀ b, b < 8 → b ∈ q.handoff.busyBuffers) ∨
        (∀ k ∈ q.handoff.pendingMarkers, (q.station k).markerPhase ≠ .waitBuffer) →
      exec .markerBufferServed s = .next q) ∧
    (q.loader.mode ≠ .active ∨ q.admission.releases = 0 ∨ q.admission.freeSet = [] ∨
        (∃ l, (q.link l).stall ≠ none) ∨
        (∀ k ∈ q.handoff.pendingMarkers, (q.station k).markerPhase ≠ .waitEntry) →
      exec .markerEntryServed s = .next q) ∧
    ((∀ st, u.bus.port ≠ .fill st) → exec .markerFillEnd s = .next u) ∧
    (∀ st, u.bus.port = .fill st → u.loader.mode = .transparent ∨ u.loader.mode = .loading →
      exec .markerFillEnd s = .next { u with bus := { u.bus with port := .idle } })) ∧
  ((∀ (st : StationId) (b : Nat) (v : State), let x := v.station st
    let t := beginFill st b v
    (∃ o, t.bus.own = v.bus.own ++ [o] ∧ o.access = .fill st (policyBase v + 0x6000 + 128 * b)
      (ownBeats [word (x.record.address.toNat % 2 ^ 32),
        word (x.record.address.toNat / 2 ^ 32 + 2 ^ 16 * x.sequence.toNat), 0, 0, 0, 0, 0, 0])) ∧
    t.station st = { x with markerPhase := .filling, markerBuffer := some b } ∧
    t.handoff.pendingMarkers = v.handoff.pendingMarkers ∧
    ∀ a, a ∈ t.handoff.busyBuffers ↔ a = b ∨ a ∈ v.handoff.busyBuffers) ∧
  (∀ (st : StationId) (i : Nat) (is : List Nat) (v : State), v.admission.freeSet = i :: is →
    let x := v.station st
    let t := takeMarkerEntry st i v
    t.entry i = { state := .queued, staging := none, station := some st, cls := .game, length := 64,
                  cost := markerCost v, stamp := v.admission.stampCounter, origin := .marker, exempt := true,
                  egressSlot := none, marker := some (x.markerBuffer.getD 0, x.sequence) } ∧
    t.queue .backhaul .game = v.queue .backhaul .game ++ [i] ∧
    t.admission.freeSet = is ∧ t.admission.stampCounter = v.admission.stampCounter + 1 ∧
    t.station st = { x with markerPhase := .sending }) ∧
  (∀ (st : StationId) (v : State), let x := v.station st
    let due := v.loader.mode = .active ∧ x.valid = true ∧ x.handoff = some .releasing ∧ x.forwardCount = 0 ∧
      x.markerPhase = .none
    let z := v.setStation st { x with markerSends := 0 }
    (¬ due → testEmission st v = v) ∧
    (due → (∀ b, b < 8 → (∀ a, a < b → a ∈ v.handoff.busyBuffers) → b ∉ v.handoff.busyBuffers →
        testEmission st v = beginFill st b z) ∧
      ((∀ b, b < 8 → b ∈ v.handoff.busyBuffers) →
        testEmission st v = { z.setStation st { x with markerSends := 0, markerPhase := .waitBuffer } with
          handoff := { v.handoff with pendingMarkers := v.handoff.pendingMarkers ++ [st] } }))) ∧
  ∀ (st : StationId) (v : State), let x := v.station st
    dropMarker st v = { v.setStation st { x with markerPhase := .none, markerBuffer := none } with
      handoff := { v.handoff with
        busyBuffers := v.handoff.busyBuffers.filter (fun b => some b ≠ x.markerBuffer) } })

/-! ### The controls -/

/-- CLOCK_SET in ACTIVE or LOADING: a good write of the clock word with the set flag's lane enabled, whose merged word
has the flag set, a minute to 10079 and a second to 59, sets the clock; in ACTIVE every valid station is evaluated, then
the gate. Without the lane or the flag, or with a value out of range, the clock runs on. At a clock set a valid
station's access is evaluated, with ACCESS_CHANGE and a status write-back where it changes; its bonus and its activity
mark stay.
The model's choices: in LOADING the clock word goes into the shadow too (log entry 20), stations are taken in ascending
number and before the gate (log entry 18), the acts of one write have a fixed order (log entry 16), and a good beat acts
though another of its write is error-marked (log entry 46). -/
def Obligations.ClockSetsReplaceTheTime : Prop :=
  (∀ (s : State) (w : UpWrite) (p : PolicyWord), let u := start s
    let m := merged u w
    let d := shadowWord m 0x008
    let isSet := lane p.mask 3 = true ∧ bit d 31 = true ∧ bits d 0 14 ≤ 10079 ∧ bits d 16 6 ≤ 59
    let set (v : State) : State := { v with clock := { v.clock with
      minute := bits d 0 14, second := bits d 16 6, subSecond := 0, isSet := true, boundaryDue := false } }
    Carries u w p → p.off = 0x008 →
    (u.loader.mode = .active →
      (isSet → exec (.clockSet w) s = .next (deviceWritten (goodWords u w)
        (evaluateGate (forEach clockSetStation allStations (set m))))) ∧
      (¬ isSet → exec (.clockSet w) s = .next (deviceWritten (goodWords u w) m))) ∧
    (u.loader.mode = .loading →
      ∃ t, exec (.clockSet w) s = .next t ∧ (isSet → t.clock = (set u).clock) ∧ (¬ isSet → t.clock = u.clock) ∧
        t.stations = u.stations ∧ t.gate = u.gate ∧ shadowWord t 0x008 = d)) ∧
  (∀ (st : StationId) (v : State), let x := v.station st
    let now := some (accessOf v x.record x.bonus)
    let t := clockSetStation st v
    (x.valid = false → t = v) ∧
    (x.valid = true → t.station st = { x with access := now } ∧ (∀ k, k ≠ st → t.station k = v.station k) ∧
      (now = x.access → t = { v with stations := t.stations }) ∧
      (now ≠ x.access → t = { issueStationStatus st 0 (raise (.accessChange st x.access now) v) with
        stations := t.stations })))

/-- PROFILE_WRITE and MAINTENANCE_INDEX_WRITE in ACTIVE: the words are merged and the gate is evaluated in the same act,
the index word after the session word of its block and only where its lane is enabled. GAME_BURST_WRITE in ACTIVE: for
each link whose burst the write enables a lane of, T becomes min(T, new B); nothing else follows the merge.
The model's choice: the order of the acts of one write (log entry 16). -/
def Obligations.ProfileIndexAndBurstWritesActAtOnce : Prop :=
  (∀ (s : State) (w : UpWrite) (p : PolicyWord), let u := start s
    let m := merged u w
    u.loader.mode = .active → Carries u w p →
    (0x4000 ≤ p.off → p.off < 0x4400 → exec (.profileWrite w) s = .next (evaluateGate m)) ∧
    (p.off = 0x18C →
      let v := match (goodWords u w).find? (fun q => q.off = 0x188) with
        | some q => sessionWordWritten q.mask m
        | none => m
      exec (.maintenanceIndexWrite w) s = .next (if lane p.mask 0 = true then evaluateGate v else v))) ∧
  (∀ (s : State) (w : UpWrite) (p : PolicyWord), let u := start s
    let m := merged u w
    u.loader.mode = .active → Carries u w p → 0x110 ≤ p.off → p.off < 0x120 →
    ∃ t, exec (.gameBurstWrite w) s = .next t ∧ t = { m with links := t.links } ∧
      ∀ l, t.link l = if ∃ q ∈ goodWords u w, q.off = 0x110 + 4 * linkNumber l ∧
            (lane q.mask 2 = true ∨ lane q.mask 3 = true) then
          { m.link l with
            tokens := min (m.link l).tokens (bits (shadowWord m (0x110 + 4 * linkNumber l)) 16 16 : Int) }
        else m.link l)

/-- An evaluation of the apply gate, by its five conditions (R143, R142, R146) and R145. A flag is set for each of the
five conditions that fails, and the gate is OPEN exactly when none is. A change of state writes the update status word
and raises APPLY_OPEN or APPLY_SHUT; a change of the mask alone writes the word; neither, and nothing is written.
The model's choice: the update status write is issued before the event is raised (log entry 18). -/
def Obligations.TheGateFollowsItsFiveConditions : Prop :=
  ∀ v : State, let r := gateReasons v
    let opens := v.image.session = .opened ∧ v.image.verified = v.image.count ∧ v.clock.isSet = true ∧
      maintenanceAllows v = true ∧ v.game.active = false ∧ v.gate.moving = 0
    let minute := if v.clock.isSet = true then some v.clock.minute else none
    let noted : State := { v with gate := { v.gate with isOpen := r.clear, reasons := r } }
    (r.clear = true ↔ opens) ∧
    (r.image = true ↔ ¬ (v.image.session = .opened ∧ v.image.verified = v.image.count)) ∧
    (r.clock = true ↔ v.clock.isSet = false) ∧ (r.window = true ↔ maintenanceAllows v = false) ∧
    (r.game = true ↔ v.game.active = true) ∧ (r.moving = true ↔ v.gate.moving ≠ 0) ∧
    (v.gate.isOpen = false → opens → evaluateGate v =
      raise (.applyOpen r v.image.verified v.image.count minute) (issueUpdateStatus 0 noted)) ∧
    (v.gate.isOpen = true → ¬ opens → evaluateGate v =
      raise (.applyShut r v.image.verified v.image.count minute) (issueUpdateStatus 0 noted)) ∧
    ((v.gate.isOpen = true ↔ opens) → r ≠ v.gate.reasons → evaluateGate v = issueUpdateStatus 0 noted) ∧
    ((v.gate.isOpen = true ↔ opens) → r = v.gate.reasons → evaluateGate v = v)

/-- SESSION_OPEN, SESSION_CLOSE, SESSION_COMMAND_NONE and SESSION_COMMAND_UNKNOWN in ACTIVE, by the merged command.
OPEN with a block count of 1 to the capacity clears the map, the count and the contexts; CLOSE of an OPEN session
frees the contexts and empties their blocks; both tell the gate. Others are refused. All but NONE write the update
status word and the NONE write behind it. The maintenance index word of the block acts after it.
The model's choices: the order of the acts of one write (log entry 16), the gate's acts before the write-back of the
result (log entry 18), and a good session word that commits though
another beat of its write is error-marked (log entry 46). -/
def Obligations.SessionCommandsOpenAndClose : Prop :=
  ∀ (s : State) (w : UpWrite) (p : PolicyWord), let u := start s
    let m := merged u w
    let c := bits (shadowWord m 0x188) 0 8
    let n := bits (shadowWord m 0x184) 0 16
    let after (v : State) : State := match (goodWords u w).find? (fun q => q.off = 0x18C) with
      | some q => maintenanceWordWritten q.mask v
      | none => v
    let refused (r : Result) : State := { m with image := { m.image with lastResult := r } }
    let ends (v : State) : State := after (issueUpdateStatus 1 v)
    u.loader.mode = .active → Carries u w p → p.off = 0x188 →
    (lane p.mask 0 = false → ∀ k ∈ [Instr.sessionOpen w, .sessionClose w, .sessionCommandNone w,
      .sessionCommandUnknown w], exec k s = .next (after m)) ∧
    (lane p.mask 0 = true →
      (c = 0 → exec (.sessionCommandNone w) s = .next (after m)) ∧
      (2 < c → exec (.sessionCommandUnknown w) s = .next (ends (refused .refusedInvalid))) ∧
      (c = 1 → 1 ≤ n → n ≤ m.image.capacity → exec (.sessionOpen w) s = .next (ends (evaluateGate
        { m with image := { m.image with session := .opened, count := n, lastResult := .accepted, blocks := [],
                                         verified := 0, contexts := [] } }))) ∧
      (c = 1 → n = 0 ∨ m.image.capacity < n → exec (.sessionOpen w) s = .next (ends (refused .refusedInvalid))) ∧
      (c = 2 → m.image.session = .opened → exec (.sessionClose w) s = .next (ends (evaluateGate
        { m with image := { m.image with session := .closed, lastResult := .accepted, contexts := [],
                                         blocks := m.image.blocks.filter (fun b => b.2 ≠ .filling) } }))) ∧
      (c = 2 → m.image.session ≠ .opened → exec (.sessionClose w) s = .next (ends (refused .refusedState))))

/-- COALESCING_THRESHOLD_WRITE in ACTIVE and STOPPING, and CONSUMER_WRITE there and in LOADING, where its word enters
the load copy as well. A threshold at or below the number of LINE records asserts the line. A consumer value within the
forward span and on no second unit is taken: C becomes it, the records before it leave, the missed mask is served where
2 units are free, and the line falls where C equals P. Any other value changes nothing.
The model's choices: the merged 16 bits are taken where one lane of them is enabled, in LOADING the word goes into the
shadow too (log entry 20), and of all words only these two act in STOPPING (log entry 21). -/
def Obligations.ThresholdAndConsumerWritesReachTheEventWriter : Prop :=
  ∀ (s : State) (w : UpWrite) (p : PolicyWord), let u := start s
    let m := merged u w
    let threshold := if m.loader.loaded = true then max 1 (min 64 (bits (shadowWord m 0x138) 0 8)) else 8
    let consumed (m : State) : Prop :=
      let n := bits (shadowWord m 0x140) 0 16
      let ev := m.events
      let span (a b : Nat) : Nat := (b + 1024 - a) % 1024
      let takes := n < 1024 ∧ span ev.consumer n ≤ span ev.consumer ev.producer ∧
        ∀ r ∈ ev.records, r.length = 2 → (r.index + 1) % 1024 ≠ n
      let v1 : State := { m with events := { ev with
        consumer := n
        records := ev.records.filter (fun r => span ev.consumer n < span ev.consumer r.index + r.length) } }
      let v2 := if v1.events.missed ≠ 0 ∧ 2 ≤ freeUnits v1.events then
          (let x := writeRecord (.overflow v1.events.missed v1.events.missedCount) .now v1
           { x with events := { x.events with missed := 0, missedCount := 0 } })
        else v1
      let v3 := if v2.events.consumer = v2.events.producer then
          { v2 with events := { v2.events with line := false } }
        else v2
      ((lane p.mask 0 = true ∨ lane p.mask 1 = true) → takes → exec (.consumerWrite w) s = .next v3) ∧
      (¬ ((lane p.mask 0 = true ∨ lane p.mask 1 = true) ∧ takes) → exec (.consumerWrite w) s = .next m)
    (u.loader.mode = .active ∨ u.loader.mode = .stopping → Carries u w p →
      (p.off = 0x138 →
        let lines := (m.events.records.filter (fun r => r.routing = .line)).length
        exec (.coalescingThresholdWrite w) s = .next
          (if lane p.mask 0 = true ∧ threshold ≤ lines then
            { m with events := { m.events with line := true } }
          else m)) ∧
      (p.off = 0x140 → consumed m)) ∧
    (u.loader.mode = .loading → Carries u w p → p.off = 0x140 →
      (u.loader.load = none → consumed m) ∧
      ∀ d, u.loader.load = some d →
        let e : Load :=
          if d.reading = some 0x140 then { d with held := d.held ++ [(0x140, p.data, p.mask)] }
          else if 0x140 < d.next then { d with copy := mergeWord d.copy 0x140 p.data p.mask }
          else d
        consumed { m with loader := { u.loader with load := some e } })

/-! ### Images -/

/-- IMAGE_WRITE: a write to the area of an OPEN session is forwarded, MEMORY_ERROR is raised for its first error-
marked beat, and its beats are judged in ascending address order, each on the state the last one left. One beat of an
image write, by the table: a whole beat at offset 0 begins or restarts its block; one at the next offset of a FILLING
block advances it, and at 255 finishes it, VERIFIED where the final CRC is the manifest entry and BAD with MISMATCH
where not; any other beat makes the block BAD, once, with its cause. A block takes the lowest free of the 8 contexts,
or the one of the greatest age, of the lowest number among equals, whose block becomes EMPTY with FILL_EVICTED. The
verified count's changes are written back; at the session count IMAGE_COMPLETE is raised and the gate evaluated in the
same act, and the gate again when the count leaves it. The CRC takes a beat one bit after another from the least
significant, reflected, by polynomial 0xEDB88320.
The model's choices: MEMORY_ERROR comes before the tracker's events, and of a change of the verified count the order of
its write-back, the block's or the image's event and the gate's acts (log entry 18). -/
def Obligations.ImageWritesAreJudgedBeatByBeat : Prop :=
  (∀ (s : State) (w : UpWrite) (off : Nat), let u := start s
    Accepts u w → regionOf u (writeStart w) = .image off →
    let ws := writtenWords w
    let told (v : State) : State := match ws.find? (fun x => x.good = false) with
      | some x => raise (.memoryErrorBus x.addr) v
      | none => v
    exec (.imageWrite w) s = .next
      (ws.foldl (fun v x => imageBeat (x.addr - u.image.base) x v) (told (forwarded u w)))) ∧
  (∀ (b k : Nat) (x : WrittenWord) (v : State), k < 256 →
    let t := imageBeat (1024 * b + 4 * k) x v
    let whole := x.good = true ∧ x.mask = 0xF
    let cause : BadCause := if x.good = false then .errorMark else if x.mask ≠ 0xF then .partialBeat else .order
    let served := v.image.contexts.find? (fun c => c.2.block = b)
    let due (c : Nat) (y : FillContext) := whole ∧ blockState v b = .filling ∧ served = some (c, y) ∧ y.next = k
    let stray := ¬ (whole ∧ k = 0) ∧ ∀ c y, ¬ due c y
    (whole → k = 0 → (blockState v b = .empty ∨ blockState v b = .bad → t = takeContext b x.data v) ∧
      (blockState v b = .verified → t = loseVerified (takeContext b x.data v)) ∧
      (blockState v b = .filling → ∀ c y, served = some (c, y) → t = setContext c
        { block := b, next := 1, crc := crcBeat 0xFFFFFFFF x.data, last := v.clock.now } v)) ∧
    (∀ c y, k ≠ 0 → k < 255 → due c y → t = setContext c
      { y with next := k + 1, crc := crcBeat y.crc x.data, last := v.clock.now } v) ∧
    (∀ c y, k = 255 → due c y →
      let same := crcBeat y.crc x.data ^^^ 0xFFFFFFFF#32 = shadowWord v (0x8000 + 4 * b)
      (same → t = gainVerified (setBlock b .verified (freeContext c v))) ∧
      (¬ same → t = raise (.blockBad b .mismatch) (setBlock b .bad (freeContext c v)))) ∧
    (stray → (blockState v b = .bad → t = v) ∧
      (blockState v b = .empty → t = raise (.blockBad b cause) (setBlock b .bad v)) ∧
      (blockState v b = .filling → t = raise (.blockBad b cause) (setBlock b .bad (freeContextFor b v))) ∧
      (blockState v b = .verified → t = loseVerified (raise (.blockBad b cause) (setBlock b .bad v))))) ∧
  (∀ r w : Word, crcBeat r w = (List.range 32).foldl (fun (a : Word) k =>
    if a.getLsbD 0 ≠ w.getLsbD k then (a >>> 1) ^^^ 0xEDB88320 else a >>> 1) r) ∧
  (∀ (b : Nat) (w : Word) (v : State),
    let fresh : FillContext := { block := b, next := 1, crc := crcBeat 0xFFFFFFFF w, last := v.clock.now }
    let used (c : Nat) := ∃ x ∈ v.image.contexts, x.1 = c
    let age (x : FillContext) := (v.clock.now - x.last).toNat
    let serve (c : Nat) (x : State) : State := setBlock b .filling (setContext c fresh x)
    (∀ c, c < 8 → ¬ used c → (∀ a, a < c → used a) → takeContext b w v = serve c v) ∧
    ((∀ c, c < 8 → used c) → v.image.contexts.Pairwise (fun x y => x.1 < y.1) → ∃ x ∈ v.image.contexts,
      (∀ y ∈ v.image.contexts, age y.2 < age x.2 ∨ (age y.2 = age x.2 ∧ x.1 ≤ y.1)) ∧
      takeContext b w v = serve x.1 (raise (.fillEvicted x.2.block b x.1) (setBlock x.2.block .empty v)))) ∧
  (∀ v : State,
    let counted (n : Nat) : State := issueUpdateStatus 0 { v with image := { v.image with verified := n } }
    let told (x : State) : State := if x.loader.mode = .active then evaluateGate x else x
    gainVerified v = (if v.image.verified + 1 = v.image.count then
        told (raise (.imageComplete v.image.count) (counted (v.image.verified + 1)))
      else counted (v.image.verified + 1)) ∧
    loseVerified v = if v.image.verified = v.image.count then told (counted (v.image.verified - 1))
      else counted (v.image.verified - 1)) ∧
  ∀ (b c : Nat) (x : BlockState) (y : FillContext) (v : State),
    (∀ k, blockState (setBlock b x v) k = if k = b then x else blockState v k) ∧
    (∀ k, Table.find (setContext c y v).image.contexts k =
      if k = c then some y else Table.find v.image.contexts k) ∧
    (∀ k, Table.find (freeContext c v).image.contexts k = if k = c then none else Table.find v.image.contexts k)

/-! ### Loads -/

/-- LOAD_READ_RETURN. Good beats join the copy at the watched words, held writes over them, and the next read of the
area is issued; a value read at the consumer index is a consumer write. At the end of the CONTROL phase the checks fail
the load or put the region map in force; the last read makes the load succeed. An error-marked beat fails it with
MEMORY. Beats of a read given up by a reset go to no one. A failed load: the ready flags are cleared, the copy and the
map are gone, the mode is TRANSPARENT, the device status word carries reason and subject, and LOAD_FAILED is raised
unless it is to be silent: for a beat of the event ring or of the event writer's words. Shadows and stations stay as
they stand. The checks are those of `loadTable`, the first that fails gives reason and subject. The load-time values
stand at their words of the copy, and the copy holds the watched words of the area as read or merged.
The model's choices: the progress a failed load shows and silence by the first error-marked beat (log entry 29), the
first pair of an overlap (log entry 23), the clock and consumer words merged in LOADING left in the shadow by a load
that fails (log entry 49), no consumer write of a read that fails (log entry 43), and the order of the acts: a consumer
write first, and the device status write of a failed load before LOAD_FAILED (log entry 18). -/
def Obligations.LoadReadsGoOnFailOrSucceed : Prop :=
  ((∀ (s : State) (off : Nat) (os : List Outstanding) (beats : List Beat), let u := start s
    u.bus.outstanding = ⟨.load off, beats.length, false⟩ :: os →
    exec (.loadReadReturn beats) s = .next { u with bus := { u.bus with outstanding := os } }) ∧
  ∀ (s : State) (off : Nat) (os : List Outstanding) (beats : List Beat) (d : Load), let u := start s
    u.bus.outstanding = ⟨.load off, beats.length, true⟩ :: os → u.loader.load = some d →
    let v : State := { u with bus := { u.bus with outstanding := os } }
    let copy := d.held.foldl (fun t h => mergeWord t h.1 h.2.1 h.2.2) (placeWords off beats d.copy)
    let e : Load := { next := d.next, reading := none, copy := copy, held := [] }
    let v1 : State := { v with loader := { v.loader with load := some e } }
    let v2 := if off = 0x140 then consumerIndex (bits ((beats.map (fun b => b.data)).getD 0 0) 0 16) v1 else v1
    let issued (o : Nat) (x : State) : State := { issue (.loadRead o) x with
      loader := { x.loader with load := some { e with next := o + 32, reading := some o } } }
    let map := regionMapOf copy
    ((∃ b ∈ beats, b.good = false) → ∃ pre b post, beats = pre ++ b :: post ∧ b.good = false ∧
      (∀ a ∈ pre, a.good = true) ∧ exec (.loadReadReturn beats) s = .next
        (failLoad .memory (off / 32) off d.next (silentAt (off + 4 * pre.length)) v)) ∧
    ((∀ b ∈ beats, b.good = true) →
      (off ≠ 0xFE0 → off ≠ 0x3FFE0 → exec (.loadReadReturn beats) s = .next (issued (off + 32) v2)) ∧
      (off = 0xFE0 → (∀ r n, checkFailure (policyBase u) map = some (r, n) →
          exec (.loadReadReturn beats) s = .next (failLoad r n n d.next false v2)) ∧
        (checkFailure (policyBase u) map = none → exec (.loadReadReturn beats) s = .next
          (issued 0x1000 { v2 with loader := { v2.loader with map := some map } }))) ∧
      (∀ m, off = 0x3FFE0 → u.loader.map = some m → exec (.loadReadReturn beats) s = .next (succeed e m v2)))) ∧
  (∀ (r : LoadReason) (subject value progress : Nat) (silent : Bool) (v : State),
    let t := failLoad r subject value progress silent v
    let e : State := { v with
      loader := { v.loader with mode := .transparent, map := none, load := none, failure := r, subject := subject }
      links := t.links }
    let told := issue (.deviceStatus (deviceStatusWord e) false) e
    (∀ l, t.link l = { v.link l with ready := [] }) ∧
    t = if silent = true then told else raise (.loadFailed r value progress) told) ∧
  (∀ (policy : Nat) (m : RegionMap),
    (∀ r n, checkFailure policy m = some (r, n) ↔ ∃ pre subject post,
      loadTable policy m = pre ++ (r, subject) :: post ∧ subject n ∧ ∀ c ∈ pre, ∀ k, ¬ c.2 k) ∧
    (checkFailure policy m = none ↔ ∀ c ∈ loadTable policy m, ∀ k, ¬ c.2 k)) ∧
  (∀ (t : Table Word) (l : Link), let w (off : Nat) := Table.read 0 t (off / 4)
    let at' (k : Nat) := w (0x040 + 32 * linkNumber l + 4 * k)
    let c := (regionMapOf t).links.get l
    (c.stagingBase = (at' 0).toNat ∧ c.stagingSize = bits (at' 1) 0 16 ∧ c.stagingStart = bits (at' 1) 16 16 ∧
      c.egressBase = (at' 2).toNat ∧ c.egressSize = bits (at' 3) 0 16 ∧ c.egressStart = bits (at' 3) 16 16 ∧
      c.receiveBase = (at' 4).toNat ∧ c.receiveSize = bits (at' 5) 0 16 ∧ c.defaultRate = bits (at' 6) 0 16 ∧
      c.preamble = bits (at' 6) 16 8 ∧ c.gap = bits (at' 6) 24 8 ∧ c.ack = bits (at' 7) 0 9) ∧
    (regionMapOf t).imageBase = (w 0x180).toNat ∧ (regionMapOf t).capacity = bits (w 0x184) 0 16) ∧
  (∀ off : Nat, off % 4 = 0 →
    (silentAt off = true ↔ (0x130 ≤ off ∧ off < 0x144) ∨ (0x5000 ≤ off ∧ off < 0x6000)) ∧
    (isWatched off = true ↔
      (∃ r ∈ [(0x000, 0x004), (0x008, 0x00C), (0x040, 0x13C), (0x140, 0x144), (0x180, 0x190), (0x1000, 0x1400),
          (0x4000, 0x4400), (0x8000, 0xC000)], r.1 ≤ off ∧ off < r.2) ∨
        (0x2000 ≤ off ∧ off < 0x4000 ∧ (off % 64 < 32 ∨ 48 ≤ off % 64)))) ∧
  (∀ (off : Nat) (beats : List Beat) (t : Table Word), off % 4 = 0 → ∀ k, Table.read 0 (placeWords off beats t) k =
    match (if off / 4 ≤ k then beats[k - off / 4]? else none) with
    | some b => if isWatched (4 * k) = true then b.data else Table.read 0 t k
    | none => Table.read 0 t k) ∧
  ∀ (t : Table Word) (off k : Nat) (w : Word) (m : Lanes), Table.read 0 (mergeWord t off w m) k =
    if k = off / 4 then mergeLanes (Table.read 0 t k) w m else Table.read 0 t k

/-- A successful load: the copy is every shadow and the mode ACTIVE. Each link starts at its start slots with its
overhead and default rate formed, credits and tokens 0, pointer GAME and low-water flag disarmed; GAME_ACTIVE is
false; the session is NONE with the image base and capacity taken; the gate is evaluated with no station moving. Each
record with valid set, a dwell count, a threshold and a known presence makes its station valid at that presence;
others do not. The status of each station whose record has valid set or a request is written back, with a NONE write
behind it for a request, and so is the update status word, with a NONE write for a session command found, which is
refused REFUSED_STATE; a write-back that waits serves the new one.
The model's choices: an invalid station's record is held as read, and a valid one's stamp is the counter's (log entry
29), joined write-backs are followed by one NONE write for each commit (log entry 19), and the device status write is
issued before LOAD_DONE is raised, after the other write-backs (log entry 18). -/
def Obligations.SuccessfulLoadsStartActive : Prop :=
  ∀ (d : Load) (m : RegionMap) (v : State), let t := succeed d m v
    (∃ x : State, x.loader = t.loader ∧
      t = raise (.loadDone v.loader.plc) (issue (.deviceStatus (deviceStatusWord x) false) x)) ∧
    (t.loader.mode = .active ∧ t.loader.load = none ∧ t.loader.loaded = true ∧ t.loader.failure = .none ∧
      t.loader.subject = 0 ∧ t.loader.map = v.loader.map) ∧
    t.shadow = d.copy ∧ t.clock = v.clock ∧ t.entries = v.entries ∧ t.game = { active := false, quiet := none } ∧
    (∀ l, let c := m.links.get l
      t.link l = { v.link l with
        cursor := c.stagingStart, lowArmed := false, answerCursor := c.egressStart, credits := ⟨0, 0, 0, 0⟩
        tokens := 0, pointer := .game, overhead := some (c.preamble + c.gap + c.ack)
        defaultRate := some (if c.defaultRate = 0 then 60 else c.defaultRate) }) ∧
    (t.image.session = .none ∧ t.image.base = m.imageBase ∧ t.image.capacity = m.capacity ∧ t.image.blocks = [] ∧
      t.image.verified = 0 ∧ t.image.contexts = [] ∧
      t.image.lastResult = if bits (shadowWord t 0x188) 0 8 = 0 then v.image.lastResult else .refusedState) ∧
    (let waiting (x : State) := (x.bus.own.map OwnItem.access).filter isUpdateStatus
     let n := if bits (shadowWord t 0x188) 0 8 = 0 then 0 else 1
     (waiting v = [] → waiting t = [.updateStatus n]) ∧
     ∀ k rest, waiting v = .updateStatus k :: rest → waiting t = .updateStatus (k + n) :: rest) ∧
    (∀ st, let r := recordOf d.copy st
      let waiting (x : State) := (x.bus.own.map OwnItem.access).filter (isStatusOf st)
      let n := if r.request = 0 then 0 else 1
      (r.valid = false → r.request = 0 → waiting t = waiting v) ∧
      (r.valid = true ∨ r.request ≠ 0 →
        (waiting v = [] → waiting t = [.stationStatus st n]) ∧
        ∀ k rest, waiting v = .stationStatus st k :: rest → waiting t = .stationStatus st (k + n) :: rest)) ∧
    (t.gate.moving = 0 ∧ t.gate.isOpen = false ∧ t.gate.reasons.image = true) ∧
    (∀ st, let r := recordOf d.copy st
      let x := v.station st
      let y := t.station st
      let ok := r.valid = true ∧ r.dwell ≠ 0 ∧ r.threshold ≠ 0 ∧ r.presence ≤ 1
      y.record = r ∧ y.holdList = [] ∧ y.operation = .idle ∧ y.timer = none ∧ y.earlyMarker = none ∧
      y.forwardCount = 0 ∧ y.carriedCount = 0 ∧ y.markerPhase = .none ∧ y.markerBuffer = none ∧ y.markerSends = 0 ∧
      y.active = false ∧ y.movedFrom = .resident ∧ y.moved = 0 ∧
      (ok → y.valid = true ∧ y.validationStamp = v.admission.stampCounter ∧
        y.handoff = some (if r.presence = 0 then .resident else .absent) ∧ y.sequence = r.sequence ∧ y.bonus = min r.grant 1440 ∧
        y.access = some (accessOf t r (min r.grant 1440)) ∧
        (x.valid = true → y.usage = x.usage ∧ y.signal = x.signal ∧ y.dwellRun = x.dwellRun ∧
          y.hintArmed = x.hintArmed) ∧
        (x.valid = false → y.usage = 0 ∧ y.signal = none ∧ y.dwellRun = 0 ∧ y.hintArmed = true)) ∧
      (¬ ok → y.valid = false ∧ y.handoff = none ∧ y.access = none ∧ y.sequence = 0 ∧ y.validationStamp = 0) ∧
      y.lastResult = if r.valid = true ∧ ¬ ok then .refusedInvalid else if r.request = 0 then .none else .refusedState)

/-! ### Events -/

/-- Raising an event of kind `k`: nothing where it is routed OFF; written where the missed mask is empty and its units
are free; else missed, its flag set and the count raised to at most 65535. A written record takes its units from P,
advances P, and asserts the line where it is NOW, or LINE with the threshold reached, which is 8 before the first load
and then its field, from 1 to 64. Kinds 0, 1, 26 and 27 are NOW;
before the first load 5 and 6 are OFF and the others LINE. A record is written from unit P modulo 512 of the ring in
one write, or two where it wraps past unit 511, and the write of the producer index follows it in the part's own
stream, unless one waits there, which then serves this record too and stays as it stands. Each record holds its kind's
code, its two byte fields and its words as the table of 11.4 gives them, 0 where the row is empty, and of a wider field
the low-order bits.
The model's choices: the waiting producer index write keeps its place and number (log entry 15), and the fields of
MEMORY_ERROR its source does not have are 0 (log entry 44), and the class of QUEUE_DROP is coded as the class hint (log
entry 48). -/
def Obligations.EventsAreRoutedWrittenOrMissed : Prop :=
  ((∀ (e : Event) (v : State), let k := eventKind e
    let r := kindRouting v k
    let n := if 23 ≤ k then 2 else 1
    let ev := v.events
    let fits := ev.missed = 0 ∧ n ≤ 512 - (ev.producer + 1024 - ev.consumer) % 1024
    let records := ev.records ++ [⟨ev.producer, n, r, v.clock.now⟩]
    let lines := (records.filter (fun x => x.routing = .line)).length
    let threshold := if v.loader.loaded = true then max 1 (min 64 (bits (shadowWord v 0x138) 0 8)) else 8
    let asserts := r = .now ∨ (r = .line ∧ threshold ≤ lines)
    let t := raise e v
    (r = .off → t = v) ∧
    (r ≠ .off → fits → t = { v with bus := t.bus, events := t.events } ∧ t.events = { ev with
      producer := (ev.producer + n) % 1024, records := records, line := t.events.line } ∧
      (asserts → t.events.line = true) ∧ (¬ asserts → t.events.line = ev.line)) ∧
    (r ≠ .off → ¬ fits → t = { v with events := { ev with
      missed := ev.missed ||| BitVec.ofNat 32 (2 ^ k), missedCount := min (ev.missedCount + 1) 65535 } }) ∧
    k < 28 ∧ (eventWords e).length = 2 * n ∧ bits (wordAt (eventWords e) 0) 0 16 = k) ∧
  ∀ (v : State) (k : Nat), kindRouting v k =
    if k = 0 ∨ k = 1 ∨ k = 26 ∨ k = 27 then .now
    else if v.loader.loaded = true then
      (match bits (shadowWord v (0x130 + 4 * (k / 16))) (2 * (k % 16)) 2 with
        | 0 => .off | 1 => .log | 2 => .line | _ => .now)
    else if k = 5 ∨ k = 6 then .off else .line) ∧
  (∀ (e : Event) (r : Routing) (v : State), let ws := eventWords e
    let p := v.events.producer % 512
    let unit := policyBase v + 0x5000 + 8 * p
    let writes : List OwnAccess :=
      if ws.length = 4 ∧ p = 511 then
        [.write unit (ownBeats (ws.take 2)), .write (policyBase v + 0x5000) (ownBeats (ws.drop 2))]
      else [.write unit (ownBeats ws)]
    let waits := OwnAccess.producerIndex ∈ v.bus.own.map OwnItem.access
    ∃ new, (writeRecord e r v).bus.own = v.bus.own ++ new ∧
      new.map OwnItem.access = writes ++ if waits then [] else [.producerIndex]) ∧
  (∀ e : Event, let w (k : Nat) := wordAt (eventWords e) k
    let row (kind a b : Nat) : Prop := bits (w 0) 0 16 = kind ∧ bits (w 0) 16 8 = a % 256 ∧ bits (w 0) 24 8 = b % 256
    let value (n : Nat) : Prop := w 1 = BitVec.ofNat 32 n
    let two (n m : Nat) : Prop := bits (w 1) 0 16 = n % 2 ^ 16 ∧ bits (w 1) 16 16 = m % 2 ^ 16
    let rest (n : Nat) : Prop := w 2 = BitVec.ofNat 32 n ∧ w 3 = 0
    let gate (kind state : Nat) (r : Reasons) (n m : Nat) (minute : Option Nat) : Prop :=
      bits (w 0) 0 16 = kind ∧ bits (w 0) 16 8 = state ∧
      (bit (w 0) 24 = r.image ∧ bit (w 0) 25 = r.clock ∧ bit (w 0) 26 = r.window ∧ bit (w 0) 27 = r.game ∧
        bit (w 0) 28 = r.moving) ∧ bits (w 0) 29 3 = 0 ∧ two n m ∧
      rest (match minute with | some k => k | none => 0xFFFFFFFF)
    match e with
    | .malformed l n => row 0 (linkNumber l) 0 ∧ value n
    | .memoryErrorBus a => row 1 0 0 ∧ value a
    | .memoryErrorAdmission l n => row 1 1 (16 * linkNumber l) ∧ two n 0
    | .memoryErrorAnswer l n l' n' => row 1 2 (16 * linkNumber l + linkNumber l') ∧ two n n'
    | .stagingOverwrite l n k => row 2 (linkNumber l) k ∧ value n
    | .unknownStation l n f => row 3 (linkNumber l) f ∧ value n
    | .poolStall l => row 4 (linkNumber l) 0 ∧ value 0
    | .queueDrop l c n => row 5 (linkNumber l) (clsCode c) ∧ value n
    | .holdDrop l n => row 6 (linkNumber l) 0 ∧ value n
    | .linkLow l n => row 7 (linkNumber l) 0 ∧ value n
    | .egressOrder l n c => row 8 (linkNumber l) c ∧ value n
    | .strayCompletion l n => row 9 (linkNumber l) 0 ∧ value n
    | .accessChange st a b => row 10 st.val (16 * accessCode a + accessCode b) ∧ value 0
    | .bonusSpent st => row 11 st.val 0 ∧ value 0
    | .steerHint st sig n l => row 12 st.val (linkNumber l) ∧ (bits (w 1) 0 16 : Int) = sig % 2 ^ 16 ∧
        (bits (w 1) 16 8 : Int) = n % 2 ^ 8 ∧ bits (w 1) 24 8 = 0
    | .handoffRefused st q h => row 13 st.val (16 * requestCode q + handoffCode h) ∧ value 0
    | .markerMissed st q => row 14 st.val q.toNat ∧ value 0
    | .staleMarker st q working => row 15 st.val q.toNat ∧ value working.toNat
    | .markerLost st q => row 16 st.val q.toNat ∧ value 0
    | .handoffDone st q => row 17 st.val q.toNat ∧ value 0
    | .blockBad b c => row 18 (match c with | .mismatch => 0 | .errorMark => 1 | .partialBeat => 2 | .order => 3) 0 ∧
        value b
    | .fillEvicted b taking c => row 19 c 0 ∧ two b taking
    | .imageComplete n => row 20 0 0 ∧ value n
    | .loadDone plc => row 21 plc.toNat 0 ∧ value 0
    | .stopped byTimeout n => row 22 (if byTimeout = true then 1 else 0) 0 ∧ value n
    | .handoffState st a b q n => row 23 st.val (16 * handoffCode (some a) + handoffCode (some b)) ∧
        bits (w 1) 0 8 = q.toNat ∧ bits (w 1) 8 12 = n % 2 ^ 12 ∧ bits (w 1) 20 12 = 0 ∧ rest 0
    | .applyOpen r n m minute => gate 24 1 r n m minute
    | .applyShut r n m minute => gate 25 0 r n m minute
    | .loadFailed r n progress => row 26 (reasonCode r) 0 ∧ value n ∧ rest progress
    | .overflow mask n => row 27 0 0 ∧ value mask.toNat ∧ rest n) ∧
  [Request.depart, .evict, .forward, .abort, .release, .arrive, .adopt].map requestCode = [1, 2, 3, 4, 5, 6, 7] ∧
  [Cls.game, .interactive, .bulk, .update].map clsCode = [0, 1, 2, 3] ∧
  [Link.wired, .radioA, .radioB, .backhaul].map linkNumber = [0, 1, 2, 3]

/-! ### Laws every step keeps -/

/-- The state after reset meets every law of a safe run. -/
def Obligations.ResetIsSafe : Prop :=
  Safe State.reset ∧ ∀ (plc : BitVec 3) (s : State), ∃ t, exec (.resetInput plc) s = .next t ∧ Safe t

/-- The week clock and the millisecond group stay in their ranges. -/
def Obligations.EveryStepKeepsTheClockLaw : Prop :=
  ∀ s t : State, ClockLaw s → step s = .next t → ClockLaw t

/-- The unconsumed records fill the ring from C to P, never more than its 512 units, and the missed mask is empty
exactly when the missed count is 0. -/
def Obligations.EveryStepKeepsTheRingLaw : Prop :=
  ∀ s t : State, RingLaw s → step s = .next t → RingLaw t

/-- Every class credit stays within −65536 to 65535 and every token count within −65535 to 65535; in ACTIVE mode no
link's tokens stand above the burst B in force, and in TRANSPARENT and LOADING every credit and token count is 0.
The image law is a premise for its clause that a load is in progress in LOADING only. -/
def Obligations.EveryStepKeepsTheAirtimeLaw : Prop :=
  ∀ s t : State, ImageLaw s → AirtimeLaw s → step s = .next t → AirtimeLaw t

/-- The pool, the station table, the shadows, the load copy, the block map and the fill contexts stay in canonical
form. -/
def Obligations.EveryStepKeepsTheCanonicalForm : Prop :=
  ∀ s t : State, CanonicalLaw s → step s = .next t → CanonicalLaw t

/-- The write buffer never holds more than 8 writes nor the read list more than 8 reads. And the law of the entry pool:
each of the 2048 entries stands in exactly one of the free set, the class queues, the hold lists and the in-flight sets,
and once; its state is the one of that place, and a free one has no field left; a hold list has at most 128 entries, the
pool at most 512 HELD ones, and an egress slot at most one in flight. A link's count of queued direct entries is the
number of DIRECT entries in its class queues, and a station's forward and carried counts sum to the number of its
FORWARDED entries not yet freed. With it stands what steps rest on to keep it: an in-flight entry without an answer copy
is the one being answered; frames are held, and sweeps, drains and timers run, in their own handoff states alone; a
marker is under way in RELEASING only, with one fill or one entry; and outside ACTIVE nothing is queued or held, outside
STOPPING too nothing is in flight. -/
def Obligations.EveryStepKeepsTheBufferLaw : Prop :=
  (∀ s t : State, BufferLaw s → step s = .next t → BufferLaw t) ∧
  ∀ s t : State, CanonicalLaw s → StationLaw s → PoolLaw s → step s = .next t → PoolLaw t

/-- The verified count is the number of VERIFIED blocks, a session is OPEN only in ACTIVE mode on an aligned area, and
the fill contexts serve FILLING blocks, each its own, and every FILLING block has one. -/
def Obligations.EveryStepKeepsTheImageLaw : Prop :=
  ∀ s t : State, ImageLaw s → step s = .next t → ImageLaw t

/-- In ACTIVE mode the gate's mask is always that of its five conditions as they stand, and it is OPEN exactly when
none fails; in every other mode it is SHUT. -/
def Obligations.EveryStepKeepsTheGateLaw : Prop :=
  ∀ s t : State, ImageLaw s → GateLaw s → step s = .next t → GateLaw t

/-- An invalid station has no handoff timer, no sweep or drain and no moving handoff state, and the gate's count of
moving stations is always the number of stations that are DEPARTING, FORWARDING, RELEASING or ARRIVING. -/
def Obligations.EveryStepKeepsTheStationLaw : Prop :=
  ∀ s t : State, StationLaw s → step s = .next t → StationLaw t
end

