-- ==== Sys2Proof/Laws/State.lean ====
section
/-! SUPPORT. The small lemmas of the state: what a read gives after an update of the same or of another part, per
link, per class, and for the operations that run over a list. -/

namespace Sys2Proof.Machine

open Sys2Proof

/-! ### Per link and per class -/

@[simp] theorem PerLink.get_put_same {α : Type} (p : PerLink α) (l : Link) (x : α) : (p.put l x).get l = x := by
  cases l <;> rfl

theorem PerLink.get_put_other {α : Type} (p : PerLink α) {l k : Link} (x : α) (h : k ≠ l) :
    (p.put l x).get k = p.get k := by
  cases l <;> cases k <;> first | rfl | exact absurd rfl h

/-- One read of one update, whatever the two links. -/
theorem PerLink.get_put {α : Type} (p : PerLink α) (l k : Link) (x : α) :
    (p.put l x).get k = if k = l then x else p.get k := by
  cases l <;> cases k <;> rfl

@[simp] theorem PerLink.put_put {α : Type} (p : PerLink α) (l : Link) (x y : α) :
    (p.put l x).put l y = p.put l y := by
  cases l <;> rfl

@[simp] theorem PerLink.get_of {α : Type} (f : Link → α) (l : Link) : (PerLink.of f).get l = f l := by
  cases l <;> rfl

theorem PerLink.ext_get {α : Type} {p q : PerLink α} (h : ∀ l, p.get l = q.get l) : p = q := by
  cases p; cases q
  have h0 := h .wired; have h1 := h .radioA; have h2 := h .radioB; have h3 := h .backhaul
  simp only [PerLink.get] at h0 h1 h2 h3
  simp [h0, h1, h2, h3]

@[simp] theorem PerClass.get_put_same {α : Type} (p : PerClass α) (c : Cls) (x : α) : (p.put c x).get c = x := by
  cases c <;> rfl

theorem PerClass.get_put_other {α : Type} (p : PerClass α) {c d : Cls} (x : α) (h : d ≠ c) :
    (p.put c x).get d = p.get d := by
  cases c <;> cases d <;> first | rfl | exact absurd rfl h

theorem PerClass.get_put {α : Type} (p : PerClass α) (c d : Cls) (x : α) :
    (p.put c x).get d = if d = c then x else p.get d := by
  cases c <;> cases d <;> rfl

@[simp] theorem PerClass.put_put {α : Type} (p : PerClass α) (c : Cls) (x y : α) :
    (p.put c x).put c y = p.put c y := by
  cases c <;> rfl

/-! ### A state and its parts -/

/-- States are equal where their parts are. -/
theorem State.ext_parts {s t : State} (h1 : s.pending = t.pending) (h2 : s.out = t.out) (h3 : s.bus = t.bus)
    (h4 : s.admission = t.admission) (h5 : s.entries = t.entries) (h6 : s.links = t.links) (h7 : s.game = t.game)
    (h8 : s.clock = t.clock) (h9 : s.stations = t.stations) (h10 : s.handoff = t.handoff) (h11 : s.image = t.image)
    (h12 : s.gate = t.gate) (h13 : s.events = t.events) (h14 : s.loader = t.loader) (h15 : s.shadow = t.shadow) :
    s = t := by
  cases s
  cases t
  simp_all

/-! ### Links of a state -/

@[simp] theorem State.link_setLink_same (s : State) (l : Link) (x : LinkState) : (s.setLink l x).link l = x := by
  simp [State.link, State.setLink]

@[simp] theorem State.setLink_setLink (s : State) (l : Link) (x y : LinkState) :
    (s.setLink l x).setLink l y = s.setLink l y := by
  simp [State.setLink]

theorem State.link_setLink (s : State) (l k : Link) (x : LinkState) :
    (s.setLink l x).link k = if k = l then x else s.link k := by
  simp [State.link, State.setLink, PerLink.get_put]

@[simp] theorem State.setLink_links (s : State) (l : Link) (x : LinkState) :
    (s.setLink l x).links = s.links.put l x := rfl

@[simp] theorem State.setStation_stations (s : State) (st : StationId) (x : Station) :
    (s.setStation st x).stations = Table.write .initial s.stations st.val x := rfl

@[simp] theorem State.setEntry_entries (s : State) (i : Nat) (e : Entry) :
    (s.setEntry i e).entries = Table.write .unused s.entries i e := rfl

/-- A link read rests on the links alone. -/
theorem State.link_congr {s t : State} (h : t.links = s.links) (l : Link) : t.link l = s.link l := by
  simp [State.link, h]

/-- An entry read rests on the pool alone. -/
theorem State.entry_congr {s t : State} (h : t.entries = s.entries) (i : Nat) : t.entry i = s.entry i := by
  simp [State.entry, h]

/-- A station read rests on the stations alone. -/
theorem State.station_congr {s t : State} (h : t.stations = s.stations) (st : StationId) :
    t.station st = s.station st := by
  simp [State.station, h]

/-! ### A read of one part after an update of another -/

@[simp] theorem State.link_setEntry (s : State) (i : Nat) (e : Entry) (l : Link) : (s.setEntry i e).link l = s.link l :=
  rfl

@[simp] theorem State.link_setStation (s : State) (st : StationId) (x : Station) (l : Link) :
    (s.setStation st x).link l = s.link l := rfl

@[simp] theorem State.entry_setLink (s : State) (l : Link) (x : LinkState) (i : Nat) :
    (s.setLink l x).entry i = s.entry i := rfl

@[simp] theorem State.entry_setStation (s : State) (st : StationId) (x : Station) (i : Nat) :
    (s.setStation st x).entry i = s.entry i := rfl

@[simp] theorem State.station_setLink (s : State) (l : Link) (x : LinkState) (st : StationId) :
    (s.setLink l x).station st = s.station st := rfl

@[simp] theorem State.station_setEntry (s : State) (i : Nat) (e : Entry) (st : StationId) :
    (s.setEntry i e).station st = s.station st := rfl

@[simp] theorem emit_out (o : Output) (s : State) : (emit o s).out = s.out ++ [o] := rfl

@[simp] theorem issue_bus (a : OwnAccess) (s : State) :
    (issue a s).bus = { s.bus with
      own := s.bus.own ++ [{ number := s.bus.nextOwn, after := s.bus.nextForwarded, access := a }]
      nextOwn := s.bus.nextOwn + 1 } := rfl

/-! ### Operations over a list -/

@[simp] theorem forEach_nil {α : Type} (f : α → State → State) (s : State) : forEach f [] s = s := rfl

@[simp] theorem forEach_cons {α : Type} (f : α → State → State) (x : α) (xs : List α) (s : State) :
    forEach f (x :: xs) s = forEach f xs (f x s) := rfl

theorem forEach_append {α : Type} (f : α → State → State) (xs ys : List α) (s : State) :
    forEach f (xs ++ ys) s = forEach f ys (forEach f xs s) := by
  induction xs generalizing s with
  | nil => rfl
  | cons x xs ih => exact ih (f x s)

/-- What each call keeps, the whole run keeps. -/
theorem forEach_keeps {α : Type} {β : Type} (g : State → β) (f : α → State → State) (xs : List α) (s : State)
    (h : ∀ x s, g (f x s) = g s) : g (forEach f xs s) = g s := by
  induction xs generalizing s with
  | nil => rfl
  | cons x xs ih => exact (ih (f x s)).trans (h x s)

/-- A property each call keeps, the whole run keeps. -/
theorem forEach_invariant {α : Type} (P : State → Prop) (f : α → State → State) (xs : List α)
    (h : ∀ x ∈ xs, ∀ s, P s → P (f x s)) {s : State} (hs : P s) : P (forEach f xs s) := by
  induction xs generalizing s with
  | nil => exact hs
  | cons x xs ih =>
    exact ih (fun y hy => h y (List.mem_cons_of_mem x hy)) (h x List.mem_cons_self s hs)

@[simp] theorem forEach_pending {α : Type} (f : α → State → State) (xs : List α) (s : State)
    (h : ∀ x s, (f x s).pending = s.pending) : (forEach f xs s).pending = s.pending :=
  forEach_keeps State.pending f xs s h

@[simp] theorem forEach_out {α : Type} (f : α → State → State) (xs : List α) (s : State)
    (h : ∀ x s, (f x s).out = s.out) : (forEach f xs s).out = s.out :=
  forEach_keeps State.out f xs s h

@[simp] theorem forEach_bus {α : Type} (f : α → State → State) (xs : List α) (s : State)
    (h : ∀ x s, (f x s).bus = s.bus) : (forEach f xs s).bus = s.bus :=
  forEach_keeps State.bus f xs s h

@[simp] theorem forEach_admission {α : Type} (f : α → State → State) (xs : List α) (s : State)
    (h : ∀ x s, (f x s).admission = s.admission) : (forEach f xs s).admission = s.admission :=
  forEach_keeps State.admission f xs s h

@[simp] theorem forEach_entries {α : Type} (f : α → State → State) (xs : List α) (s : State)
    (h : ∀ x s, (f x s).entries = s.entries) : (forEach f xs s).entries = s.entries :=
  forEach_keeps State.entries f xs s h

@[simp] theorem forEach_links {α : Type} (f : α → State → State) (xs : List α) (s : State)
    (h : ∀ x s, (f x s).links = s.links) : (forEach f xs s).links = s.links :=
  forEach_keeps State.links f xs s h

@[simp] theorem forEach_game {α : Type} (f : α → State → State) (xs : List α) (s : State)
    (h : ∀ x s, (f x s).game = s.game) : (forEach f xs s).game = s.game :=
  forEach_keeps State.game f xs s h

@[simp] theorem forEach_clock {α : Type} (f : α → State → State) (xs : List α) (s : State)
    (h : ∀ x s, (f x s).clock = s.clock) : (forEach f xs s).clock = s.clock :=
  forEach_keeps State.clock f xs s h

@[simp] theorem forEach_stations {α : Type} (f : α → State → State) (xs : List α) (s : State)
    (h : ∀ x s, (f x s).stations = s.stations) : (forEach f xs s).stations = s.stations :=
  forEach_keeps State.stations f xs s h

@[simp] theorem forEach_handoff {α : Type} (f : α → State → State) (xs : List α) (s : State)
    (h : ∀ x s, (f x s).handoff = s.handoff) : (forEach f xs s).handoff = s.handoff :=
  forEach_keeps State.handoff f xs s h

@[simp] theorem forEach_image {α : Type} (f : α → State → State) (xs : List α) (s : State)
    (h : ∀ x s, (f x s).image = s.image) : (forEach f xs s).image = s.image :=
  forEach_keeps State.image f xs s h

@[simp] theorem forEach_gate {α : Type} (f : α → State → State) (xs : List α) (s : State)
    (h : ∀ x s, (f x s).gate = s.gate) : (forEach f xs s).gate = s.gate :=
  forEach_keeps State.gate f xs s h

@[simp] theorem forEach_events {α : Type} (f : α → State → State) (xs : List α) (s : State)
    (h : ∀ x s, (f x s).events = s.events) : (forEach f xs s).events = s.events :=
  forEach_keeps State.events f xs s h

@[simp] theorem forEach_loader {α : Type} (f : α → State → State) (xs : List α) (s : State)
    (h : ∀ x s, (f x s).loader = s.loader) : (forEach f xs s).loader = s.loader :=
  forEach_keeps State.loader f xs s h

@[simp] theorem forEach_shadow {α : Type} (f : α → State → State) (xs : List α) (s : State)
    (h : ∀ x s, (f x s).shadow = s.shadow) : (forEach f xs s).shadow = s.shadow :=
  forEach_keeps State.shadow f xs s h

end Sys2Proof.Machine
end

