-- ==== Sys2Proof/Laws/FrameCore.lean ====
section
/-! SUPPORT. Frames: the parts of the state that each operation leaves as they were, for the named operations, the event writer, the apply gate and airtime. -/

namespace Sys2Proof.Machine

open Sys2Proof

/-! ### Machine/Ops.lean -/

@[simp] theorem State.setLink_frame (s : State) (l : Link) (x : LinkState) : (State.setLink s l x).pending =
    s.pending ∧ (State.setLink s l x).out = s.out ∧ (State.setLink s l x).bus = s.bus ∧ (State.setLink s l
    x).admission = s.admission ∧ (State.setLink s l x).entries = s.entries ∧ (State.setLink s l x).game = s.game ∧
    (State.setLink s l x).clock = s.clock ∧ (State.setLink s l x).stations = s.stations ∧ (State.setLink s l
    x).handoff = s.handoff ∧ (State.setLink s l x).image = s.image ∧ (State.setLink s l x).gate = s.gate ∧
    (State.setLink s l x).events = s.events ∧ (State.setLink s l x).loader = s.loader ∧ (State.setLink s l x).shadow
    = s.shadow := by
  simp [State.setLink]

@[simp] theorem State.setQueue_frame (s : State) (l : Link) (c : Cls) (q : List ℕ) : (State.setQueue s l c
    q).pending = s.pending ∧ (State.setQueue s l c q).out = s.out ∧ (State.setQueue s l c q).bus = s.bus ∧
    (State.setQueue s l c q).admission = s.admission ∧ (State.setQueue s l c q).entries = s.entries ∧
    (State.setQueue s l c q).game = s.game ∧ (State.setQueue s l c q).clock = s.clock ∧ (State.setQueue s l c
    q).stations = s.stations ∧ (State.setQueue s l c q).handoff = s.handoff ∧ (State.setQueue s l c q).image =
    s.image ∧ (State.setQueue s l c q).gate = s.gate ∧ (State.setQueue s l c q).events = s.events ∧ (State.setQueue
    s l c q).loader = s.loader ∧ (State.setQueue s l c q).shadow = s.shadow := by
  simp [State.setQueue]

@[simp] theorem State.setEntry_frame (s : State) (i : ℕ) (e : Entry) : (State.setEntry s i e).pending = s.pending ∧
    (State.setEntry s i e).out = s.out ∧ (State.setEntry s i e).bus = s.bus ∧ (State.setEntry s i e).admission =
    s.admission ∧ (State.setEntry s i e).links = s.links ∧ (State.setEntry s i e).game = s.game ∧ (State.setEntry s
    i e).clock = s.clock ∧ (State.setEntry s i e).stations = s.stations ∧ (State.setEntry s i e).handoff = s.handoff
    ∧ (State.setEntry s i e).image = s.image ∧ (State.setEntry s i e).gate = s.gate ∧ (State.setEntry s i e).events
    = s.events ∧ (State.setEntry s i e).loader = s.loader ∧ (State.setEntry s i e).shadow = s.shadow := by
  simp [State.setEntry]

@[simp] theorem State.setStation_frame (s : State) (st : StationId) (x : Station) : (State.setStation s st
    x).pending = s.pending ∧ (State.setStation s st x).out = s.out ∧ (State.setStation s st x).bus = s.bus ∧
    (State.setStation s st x).admission = s.admission ∧ (State.setStation s st x).entries = s.entries ∧
    (State.setStation s st x).links = s.links ∧ (State.setStation s st x).game = s.game ∧ (State.setStation s st
    x).clock = s.clock ∧ (State.setStation s st x).handoff = s.handoff ∧ (State.setStation s st x).image = s.image ∧
    (State.setStation s st x).gate = s.gate ∧ (State.setStation s st x).events = s.events ∧ (State.setStation s st
    x).loader = s.loader ∧ (State.setStation s st x).shadow = s.shadow := by
  simp [State.setStation]

@[simp] theorem emit_frame (o : Output) (s : State) : (emit o s).pending = s.pending ∧ (emit o s).bus = s.bus ∧
    (emit o s).admission = s.admission ∧ (emit o s).entries = s.entries ∧ (emit o s).links = s.links ∧ (emit o
    s).game = s.game ∧ (emit o s).clock = s.clock ∧ (emit o s).stations = s.stations ∧ (emit o s).handoff =
    s.handoff ∧ (emit o s).image = s.image ∧ (emit o s).gate = s.gate ∧ (emit o s).events = s.events ∧ (emit o
    s).loader = s.loader ∧ (emit o s).shadow = s.shadow := by
  simp [emit]

@[simp] theorem issue_frame (a : OwnAccess) (s : State) : (issue a s).pending = s.pending ∧ (issue a s).out = s.out
    ∧ (issue a s).admission = s.admission ∧ (issue a s).entries = s.entries ∧ (issue a s).links = s.links ∧ (issue a
    s).game = s.game ∧ (issue a s).clock = s.clock ∧ (issue a s).stations = s.stations ∧ (issue a s).handoff =
    s.handoff ∧ (issue a s).image = s.image ∧ (issue a s).gate = s.gate ∧ (issue a s).events = s.events ∧ (issue a
    s).loader = s.loader ∧ (issue a s).shadow = s.shadow := by
  simp [issue]

@[simp] theorem issueWords_frame (addr : ℕ) (ws : List Word) (s : State) : (issueWords addr ws s).pending =
    s.pending ∧ (issueWords addr ws s).out = s.out ∧ (issueWords addr ws s).admission = s.admission ∧ (issueWords
    addr ws s).entries = s.entries ∧ (issueWords addr ws s).links = s.links ∧ (issueWords addr ws s).game = s.game ∧
    (issueWords addr ws s).clock = s.clock ∧ (issueWords addr ws s).stations = s.stations ∧ (issueWords addr ws
    s).handoff = s.handoff ∧ (issueWords addr ws s).image = s.image ∧ (issueWords addr ws s).gate = s.gate ∧
    (issueWords addr ws s).events = s.events ∧ (issueWords addr ws s).loader = s.loader ∧ (issueWords addr ws
    s).shadow = s.shadow := by
  simp [issueWords]

@[simp] theorem issueLanes_frame (addr : ℕ) (m : Lanes) (w : Word) (s : State) : (issueLanes addr m w s).pending =
    s.pending ∧ (issueLanes addr m w s).out = s.out ∧ (issueLanes addr m w s).admission = s.admission ∧ (issueLanes
    addr m w s).entries = s.entries ∧ (issueLanes addr m w s).links = s.links ∧ (issueLanes addr m w s).game =
    s.game ∧ (issueLanes addr m w s).clock = s.clock ∧ (issueLanes addr m w s).stations = s.stations ∧ (issueLanes
    addr m w s).handoff = s.handoff ∧ (issueLanes addr m w s).image = s.image ∧ (issueLanes addr m w s).gate =
    s.gate ∧ (issueLanes addr m w s).events = s.events ∧ (issueLanes addr m w s).loader = s.loader ∧ (issueLanes
    addr m w s).shadow = s.shadow := by
  simp [issueLanes]

@[simp] theorem issueJoined_frame (p : OwnAccess → Bool) (f : OwnAccess → OwnAccess) (a : OwnAccess) (s : State) :
    (issueJoined p f a s).pending = s.pending ∧ (issueJoined p f a s).out = s.out ∧ (issueJoined p f a s).admission
    = s.admission ∧ (issueJoined p f a s).entries = s.entries ∧ (issueJoined p f a s).links = s.links ∧ (issueJoined
    p f a s).game = s.game ∧ (issueJoined p f a s).clock = s.clock ∧ (issueJoined p f a s).stations = s.stations ∧
    (issueJoined p f a s).handoff = s.handoff ∧ (issueJoined p f a s).image = s.image ∧ (issueJoined p f a s).gate =
    s.gate ∧ (issueJoined p f a s).events = s.events ∧ (issueJoined p f a s).loader = s.loader ∧ (issueJoined p f a
    s).shadow = s.shadow := by
  unfold issueJoined; (repeat' split) <;> simp

@[simp] theorem issueStationStatus_frame (st : StationId) (nones : ℕ) (s : State) : (issueStationStatus st nones
    s).pending = s.pending ∧ (issueStationStatus st nones s).out = s.out ∧ (issueStationStatus st nones s).admission
    = s.admission ∧ (issueStationStatus st nones s).entries = s.entries ∧ (issueStationStatus st nones s).links =
    s.links ∧ (issueStationStatus st nones s).game = s.game ∧ (issueStationStatus st nones s).clock = s.clock ∧
    (issueStationStatus st nones s).stations = s.stations ∧ (issueStationStatus st nones s).handoff = s.handoff ∧
    (issueStationStatus st nones s).image = s.image ∧ (issueStationStatus st nones s).gate = s.gate ∧
    (issueStationStatus st nones s).events = s.events ∧ (issueStationStatus st nones s).loader = s.loader ∧
    (issueStationStatus st nones s).shadow = s.shadow := by
  simp [issueStationStatus]

@[simp] theorem issueUpdateStatus_frame (nones : ℕ) (s : State) : (issueUpdateStatus nones s).pending = s.pending ∧
    (issueUpdateStatus nones s).out = s.out ∧ (issueUpdateStatus nones s).admission = s.admission ∧
    (issueUpdateStatus nones s).entries = s.entries ∧ (issueUpdateStatus nones s).links = s.links ∧
    (issueUpdateStatus nones s).game = s.game ∧ (issueUpdateStatus nones s).clock = s.clock ∧ (issueUpdateStatus
    nones s).stations = s.stations ∧ (issueUpdateStatus nones s).handoff = s.handoff ∧ (issueUpdateStatus nones
    s).image = s.image ∧ (issueUpdateStatus nones s).gate = s.gate ∧ (issueUpdateStatus nones s).events = s.events ∧
    (issueUpdateStatus nones s).loader = s.loader ∧ (issueUpdateStatus nones s).shadow = s.shadow := by
  simp [issueUpdateStatus]

@[simp] theorem issueProducer_frame (s : State) : (issueProducer s).pending = s.pending ∧ (issueProducer s).out =
    s.out ∧ (issueProducer s).admission = s.admission ∧ (issueProducer s).entries = s.entries ∧ (issueProducer
    s).links = s.links ∧ (issueProducer s).game = s.game ∧ (issueProducer s).clock = s.clock ∧ (issueProducer
    s).stations = s.stations ∧ (issueProducer s).handoff = s.handoff ∧ (issueProducer s).image = s.image ∧
    (issueProducer s).gate = s.gate ∧ (issueProducer s).events = s.events ∧ (issueProducer s).loader = s.loader ∧
    (issueProducer s).shadow = s.shadow := by
  simp [issueProducer]

/-! ### Machine/Events.lean -/

@[simp] theorem setLine_frame (b : Bool) (s : State) : (setLine b s).pending = s.pending ∧ (setLine b s).out = s.out
    ∧ (setLine b s).bus = s.bus ∧ (setLine b s).admission = s.admission ∧ (setLine b s).entries = s.entries ∧
    (setLine b s).links = s.links ∧ (setLine b s).game = s.game ∧ (setLine b s).clock = s.clock ∧ (setLine b
    s).stations = s.stations ∧ (setLine b s).handoff = s.handoff ∧ (setLine b s).image = s.image ∧ (setLine b
    s).gate = s.gate ∧ (setLine b s).loader = s.loader ∧ (setLine b s).shadow = s.shadow := by
  simp [setLine]

@[simp] theorem issueRecord_frame (ws : List Word) (s : State) : (issueRecord ws s).pending = s.pending ∧
    (issueRecord ws s).out = s.out ∧ (issueRecord ws s).admission = s.admission ∧ (issueRecord ws s).entries =
    s.entries ∧ (issueRecord ws s).links = s.links ∧ (issueRecord ws s).game = s.game ∧ (issueRecord ws s).clock =
    s.clock ∧ (issueRecord ws s).stations = s.stations ∧ (issueRecord ws s).handoff = s.handoff ∧ (issueRecord ws
    s).image = s.image ∧ (issueRecord ws s).gate = s.gate ∧ (issueRecord ws s).events = s.events ∧ (issueRecord ws
    s).loader = s.loader ∧ (issueRecord ws s).shadow = s.shadow := by
  unfold issueRecord; (repeat' split) <;> simp

@[simp] theorem appendRecord_frame (units : ℕ) (r : Routing) (s : State) : (appendRecord units r s).pending =
    s.pending ∧ (appendRecord units r s).out = s.out ∧ (appendRecord units r s).bus = s.bus ∧ (appendRecord units r
    s).admission = s.admission ∧ (appendRecord units r s).entries = s.entries ∧ (appendRecord units r s).links =
    s.links ∧ (appendRecord units r s).game = s.game ∧ (appendRecord units r s).clock = s.clock ∧ (appendRecord
    units r s).stations = s.stations ∧ (appendRecord units r s).handoff = s.handoff ∧ (appendRecord units r s).image
    = s.image ∧ (appendRecord units r s).gate = s.gate ∧ (appendRecord units r s).loader = s.loader ∧ (appendRecord
    units r s).shadow = s.shadow := by
  simp [appendRecord]

@[simp] theorem testLine_frame (r : Routing) (s : State) : (testLine r s).pending = s.pending ∧ (testLine r s).out =
    s.out ∧ (testLine r s).bus = s.bus ∧ (testLine r s).admission = s.admission ∧ (testLine r s).entries = s.entries
    ∧ (testLine r s).links = s.links ∧ (testLine r s).game = s.game ∧ (testLine r s).clock = s.clock ∧ (testLine r
    s).stations = s.stations ∧ (testLine r s).handoff = s.handoff ∧ (testLine r s).image = s.image ∧ (testLine r
    s).gate = s.gate ∧ (testLine r s).loader = s.loader ∧ (testLine r s).shadow = s.shadow := by
  unfold testLine; (repeat' split) <;> simp

@[simp] theorem writeRecord_frame (e : Event) (r : Routing) (s : State) : (writeRecord e r s).pending = s.pending ∧
    (writeRecord e r s).out = s.out ∧ (writeRecord e r s).admission = s.admission ∧ (writeRecord e r s).entries =
    s.entries ∧ (writeRecord e r s).links = s.links ∧ (writeRecord e r s).game = s.game ∧ (writeRecord e r s).clock
    = s.clock ∧ (writeRecord e r s).stations = s.stations ∧ (writeRecord e r s).handoff = s.handoff ∧ (writeRecord e
    r s).image = s.image ∧ (writeRecord e r s).gate = s.gate ∧ (writeRecord e r s).loader = s.loader ∧ (writeRecord
    e r s).shadow = s.shadow := by
  simp [writeRecord]

@[simp] theorem missRecord_frame (k : ℕ) (s : State) : (missRecord k s).pending = s.pending ∧ (missRecord k s).out =
    s.out ∧ (missRecord k s).bus = s.bus ∧ (missRecord k s).admission = s.admission ∧ (missRecord k s).entries =
    s.entries ∧ (missRecord k s).links = s.links ∧ (missRecord k s).game = s.game ∧ (missRecord k s).clock = s.clock
    ∧ (missRecord k s).stations = s.stations ∧ (missRecord k s).handoff = s.handoff ∧ (missRecord k s).image =
    s.image ∧ (missRecord k s).gate = s.gate ∧ (missRecord k s).loader = s.loader ∧ (missRecord k s).shadow =
    s.shadow := by
  simp [missRecord]

@[simp] theorem raise_frame (e : Event) (s : State) : (raise e s).pending = s.pending ∧ (raise e s).out = s.out ∧
    (raise e s).admission = s.admission ∧ (raise e s).entries = s.entries ∧ (raise e s).links = s.links ∧ (raise e
    s).game = s.game ∧ (raise e s).clock = s.clock ∧ (raise e s).stations = s.stations ∧ (raise e s).handoff =
    s.handoff ∧ (raise e s).image = s.image ∧ (raise e s).gate = s.gate ∧ (raise e s).loader = s.loader ∧ (raise e
    s).shadow = s.shadow := by
  unfold raise; (repeat' split) <;> simp

@[simp] theorem consume_frame (v : ℕ) (s : State) : (consume v s).pending = s.pending ∧ (consume v s).out = s.out ∧
    (consume v s).bus = s.bus ∧ (consume v s).admission = s.admission ∧ (consume v s).entries = s.entries ∧ (consume
    v s).links = s.links ∧ (consume v s).game = s.game ∧ (consume v s).clock = s.clock ∧ (consume v s).stations =
    s.stations ∧ (consume v s).handoff = s.handoff ∧ (consume v s).image = s.image ∧ (consume v s).gate = s.gate ∧
    (consume v s).loader = s.loader ∧ (consume v s).shadow = s.shadow := by
  simp [consume]

@[simp] theorem clearMissed_frame (s : State) : (clearMissed s).pending = s.pending ∧ (clearMissed s).out = s.out ∧
    (clearMissed s).bus = s.bus ∧ (clearMissed s).admission = s.admission ∧ (clearMissed s).entries = s.entries ∧
    (clearMissed s).links = s.links ∧ (clearMissed s).game = s.game ∧ (clearMissed s).clock = s.clock ∧ (clearMissed
    s).stations = s.stations ∧ (clearMissed s).handoff = s.handoff ∧ (clearMissed s).image = s.image ∧ (clearMissed
    s).gate = s.gate ∧ (clearMissed s).loader = s.loader ∧ (clearMissed s).shadow = s.shadow := by
  simp [clearMissed]

@[simp] theorem serveMissed_frame (s : State) : (serveMissed s).pending = s.pending ∧ (serveMissed s).out = s.out ∧
    (serveMissed s).admission = s.admission ∧ (serveMissed s).entries = s.entries ∧ (serveMissed s).links = s.links
    ∧ (serveMissed s).game = s.game ∧ (serveMissed s).clock = s.clock ∧ (serveMissed s).stations = s.stations ∧
    (serveMissed s).handoff = s.handoff ∧ (serveMissed s).image = s.image ∧ (serveMissed s).gate = s.gate ∧
    (serveMissed s).loader = s.loader ∧ (serveMissed s).shadow = s.shadow := by
  unfold serveMissed; (repeat' split) <;> simp

@[simp] theorem testDeassert_frame (s : State) : (testDeassert s).pending = s.pending ∧ (testDeassert s).out = s.out
    ∧ (testDeassert s).bus = s.bus ∧ (testDeassert s).admission = s.admission ∧ (testDeassert s).entries = s.entries
    ∧ (testDeassert s).links = s.links ∧ (testDeassert s).game = s.game ∧ (testDeassert s).clock = s.clock ∧
    (testDeassert s).stations = s.stations ∧ (testDeassert s).handoff = s.handoff ∧ (testDeassert s).image = s.image
    ∧ (testDeassert s).gate = s.gate ∧ (testDeassert s).loader = s.loader ∧ (testDeassert s).shadow = s.shadow := by
  unfold testDeassert; (repeat' split) <;> simp

@[simp] theorem consumerIndex_frame (v : ℕ) (s : State) : (consumerIndex v s).pending = s.pending ∧ (consumerIndex v
    s).out = s.out ∧ (consumerIndex v s).admission = s.admission ∧ (consumerIndex v s).entries = s.entries ∧
    (consumerIndex v s).links = s.links ∧ (consumerIndex v s).game = s.game ∧ (consumerIndex v s).clock = s.clock ∧
    (consumerIndex v s).stations = s.stations ∧ (consumerIndex v s).handoff = s.handoff ∧ (consumerIndex v s).image
    = s.image ∧ (consumerIndex v s).gate = s.gate ∧ (consumerIndex v s).loader = s.loader ∧ (consumerIndex v
    s).shadow = s.shadow := by
  unfold consumerIndex; (repeat' split) <;> simp

@[simp] theorem testThreshold_frame (s : State) : (testThreshold s).pending = s.pending ∧ (testThreshold s).out =
    s.out ∧ (testThreshold s).bus = s.bus ∧ (testThreshold s).admission = s.admission ∧ (testThreshold s).entries =
    s.entries ∧ (testThreshold s).links = s.links ∧ (testThreshold s).game = s.game ∧ (testThreshold s).clock =
    s.clock ∧ (testThreshold s).stations = s.stations ∧ (testThreshold s).handoff = s.handoff ∧ (testThreshold
    s).image = s.image ∧ (testThreshold s).gate = s.gate ∧ (testThreshold s).loader = s.loader ∧ (testThreshold
    s).shadow = s.shadow := by
  unfold testThreshold; (repeat' split) <;> simp

@[simp] theorem testCoalescing_frame (s : State) : (testCoalescing s).pending = s.pending ∧ (testCoalescing s).out =
    s.out ∧ (testCoalescing s).bus = s.bus ∧ (testCoalescing s).admission = s.admission ∧ (testCoalescing s).entries
    = s.entries ∧ (testCoalescing s).links = s.links ∧ (testCoalescing s).game = s.game ∧ (testCoalescing s).clock =
    s.clock ∧ (testCoalescing s).stations = s.stations ∧ (testCoalescing s).handoff = s.handoff ∧ (testCoalescing
    s).image = s.image ∧ (testCoalescing s).gate = s.gate ∧ (testCoalescing s).loader = s.loader ∧ (testCoalescing
    s).shadow = s.shadow := by
  unfold testCoalescing; (repeat' split) <;> simp

/-! ### Machine/Gate.lean -/

@[simp] theorem recordGate_frame (r : Reasons) (s : State) : (recordGate r s).pending = s.pending ∧ (recordGate r
    s).out = s.out ∧ (recordGate r s).bus = s.bus ∧ (recordGate r s).admission = s.admission ∧ (recordGate r
    s).entries = s.entries ∧ (recordGate r s).links = s.links ∧ (recordGate r s).game = s.game ∧ (recordGate r
    s).clock = s.clock ∧ (recordGate r s).stations = s.stations ∧ (recordGate r s).handoff = s.handoff ∧ (recordGate
    r s).image = s.image ∧ (recordGate r s).events = s.events ∧ (recordGate r s).loader = s.loader ∧ (recordGate r
    s).shadow = s.shadow := by
  simp [recordGate]

@[simp] theorem judgeGate_frame (r : Reasons) (s : State) : (judgeGate r s).pending = s.pending ∧ (judgeGate r
    s).out = s.out ∧ (judgeGate r s).admission = s.admission ∧ (judgeGate r s).entries = s.entries ∧ (judgeGate r
    s).links = s.links ∧ (judgeGate r s).game = s.game ∧ (judgeGate r s).clock = s.clock ∧ (judgeGate r s).stations
    = s.stations ∧ (judgeGate r s).handoff = s.handoff ∧ (judgeGate r s).image = s.image ∧ (judgeGate r s).loader =
    s.loader ∧ (judgeGate r s).shadow = s.shadow := by
  unfold judgeGate; (repeat' split) <;> simp

@[simp] theorem evaluateGate_frame (s : State) : (evaluateGate s).pending = s.pending ∧ (evaluateGate s).out = s.out
    ∧ (evaluateGate s).admission = s.admission ∧ (evaluateGate s).entries = s.entries ∧ (evaluateGate s).links =
    s.links ∧ (evaluateGate s).game = s.game ∧ (evaluateGate s).clock = s.clock ∧ (evaluateGate s).stations =
    s.stations ∧ (evaluateGate s).handoff = s.handoff ∧ (evaluateGate s).image = s.image ∧ (evaluateGate s).loader =
    s.loader ∧ (evaluateGate s).shadow = s.shadow := by
  simp [evaluateGate]

@[simp] theorem noticeGate_frame (s : State) : (noticeGate s).pending = s.pending ∧ (noticeGate s).out = s.out ∧
    (noticeGate s).admission = s.admission ∧ (noticeGate s).entries = s.entries ∧ (noticeGate s).links = s.links ∧
    (noticeGate s).game = s.game ∧ (noticeGate s).clock = s.clock ∧ (noticeGate s).stations = s.stations ∧
    (noticeGate s).handoff = s.handoff ∧ (noticeGate s).image = s.image ∧ (noticeGate s).loader = s.loader ∧
    (noticeGate s).shadow = s.shadow := by
  unfold noticeGate; (repeat' split) <;> simp

/-! ### Machine/Airtime.lean -/

@[simp] theorem setCredit_frame (l : Link) (c : Cls) (v : ℤ) (s : State) : (setCredit l c v s).pending = s.pending ∧
    (setCredit l c v s).out = s.out ∧ (setCredit l c v s).bus = s.bus ∧ (setCredit l c v s).admission = s.admission
    ∧ (setCredit l c v s).entries = s.entries ∧ (setCredit l c v s).game = s.game ∧ (setCredit l c v s).clock =
    s.clock ∧ (setCredit l c v s).stations = s.stations ∧ (setCredit l c v s).handoff = s.handoff ∧ (setCredit l c v
    s).image = s.image ∧ (setCredit l c v s).gate = s.gate ∧ (setCredit l c v s).events = s.events ∧ (setCredit l c
    v s).loader = s.loader ∧ (setCredit l c v s).shadow = s.shadow := by
  simp [setCredit]

@[simp] theorem setTokens_frame (l : Link) (v : ℤ) (s : State) : (setTokens l v s).pending = s.pending ∧ (setTokens
    l v s).out = s.out ∧ (setTokens l v s).bus = s.bus ∧ (setTokens l v s).admission = s.admission ∧ (setTokens l v
    s).entries = s.entries ∧ (setTokens l v s).game = s.game ∧ (setTokens l v s).clock = s.clock ∧ (setTokens l v
    s).stations = s.stations ∧ (setTokens l v s).handoff = s.handoff ∧ (setTokens l v s).image = s.image ∧
    (setTokens l v s).gate = s.gate ∧ (setTokens l v s).events = s.events ∧ (setTokens l v s).loader = s.loader ∧
    (setTokens l v s).shadow = s.shadow := by
  simp [setTokens]

@[simp] theorem refillLink_frame (l : Link) (s : State) : (refillLink l s).pending = s.pending ∧ (refillLink l
    s).out = s.out ∧ (refillLink l s).bus = s.bus ∧ (refillLink l s).admission = s.admission ∧ (refillLink l
    s).entries = s.entries ∧ (refillLink l s).game = s.game ∧ (refillLink l s).clock = s.clock ∧ (refillLink l
    s).stations = s.stations ∧ (refillLink l s).handoff = s.handoff ∧ (refillLink l s).image = s.image ∧ (refillLink
    l s).gate = s.gate ∧ (refillLink l s).events = s.events ∧ (refillLink l s).loader = s.loader ∧ (refillLink l
    s).shadow = s.shadow := by
  simp [refillLink]

@[simp] theorem refill_frame (s : State) : (refill s).pending = s.pending ∧ (refill s).out = s.out ∧ (refill s).bus
    = s.bus ∧ (refill s).admission = s.admission ∧ (refill s).entries = s.entries ∧ (refill s).game = s.game ∧
    (refill s).clock = s.clock ∧ (refill s).stations = s.stations ∧ (refill s).handoff = s.handoff ∧ (refill
    s).image = s.image ∧ (refill s).gate = s.gate ∧ (refill s).events = s.events ∧ (refill s).loader = s.loader ∧
    (refill s).shadow = s.shadow := by
  unfold refill; (repeat' split) <;> simp

@[simp] theorem clampTokens_frame (l : Link) (s : State) : (clampTokens l s).pending = s.pending ∧ (clampTokens l
    s).out = s.out ∧ (clampTokens l s).bus = s.bus ∧ (clampTokens l s).admission = s.admission ∧ (clampTokens l
    s).entries = s.entries ∧ (clampTokens l s).game = s.game ∧ (clampTokens l s).clock = s.clock ∧ (clampTokens l
    s).stations = s.stations ∧ (clampTokens l s).handoff = s.handoff ∧ (clampTokens l s).image = s.image ∧
    (clampTokens l s).gate = s.gate ∧ (clampTokens l s).events = s.events ∧ (clampTokens l s).loader = s.loader ∧
    (clampTokens l s).shadow = s.shadow := by
  simp [clampTokens]

@[simp] theorem chargeRetries_frame (l : Link) (i : ℕ) (retries : ℕ) (s : State) : (chargeRetries l i retries
    s).pending = s.pending ∧ (chargeRetries l i retries s).out = s.out ∧ (chargeRetries l i retries s).bus = s.bus ∧
    (chargeRetries l i retries s).admission = s.admission ∧ (chargeRetries l i retries s).entries = s.entries ∧
    (chargeRetries l i retries s).game = s.game ∧ (chargeRetries l i retries s).clock = s.clock ∧ (chargeRetries l i
    retries s).stations = s.stations ∧ (chargeRetries l i retries s).handoff = s.handoff ∧ (chargeRetries l i
    retries s).image = s.image ∧ (chargeRetries l i retries s).gate = s.gate ∧ (chargeRetries l i retries s).events
    = s.events ∧ (chargeRetries l i retries s).loader = s.loader ∧ (chargeRetries l i retries s).shadow = s.shadow
    := by
  unfold chargeRetries; dsimp only; (repeat' split) <;> simp

@[simp] theorem addUsage_frame (st : StationId) (n : ℕ) (s : State) : (addUsage st n s).pending = s.pending ∧
    (addUsage st n s).out = s.out ∧ (addUsage st n s).bus = s.bus ∧ (addUsage st n s).admission = s.admission ∧
    (addUsage st n s).entries = s.entries ∧ (addUsage st n s).links = s.links ∧ (addUsage st n s).game = s.game ∧
    (addUsage st n s).clock = s.clock ∧ (addUsage st n s).handoff = s.handoff ∧ (addUsage st n s).image = s.image ∧
    (addUsage st n s).gate = s.gate ∧ (addUsage st n s).events = s.events ∧ (addUsage st n s).loader = s.loader ∧
    (addUsage st n s).shadow = s.shadow := by
  simp [addUsage]

@[simp] theorem chargeUsage_frame (i : ℕ) (retries : ℕ) (s : State) : (chargeUsage i retries s).pending = s.pending
    ∧ (chargeUsage i retries s).out = s.out ∧ (chargeUsage i retries s).bus = s.bus ∧ (chargeUsage i retries
    s).admission = s.admission ∧ (chargeUsage i retries s).entries = s.entries ∧ (chargeUsage i retries s).links =
    s.links ∧ (chargeUsage i retries s).game = s.game ∧ (chargeUsage i retries s).clock = s.clock ∧ (chargeUsage i
    retries s).handoff = s.handoff ∧ (chargeUsage i retries s).image = s.image ∧ (chargeUsage i retries s).gate =
    s.gate ∧ (chargeUsage i retries s).events = s.events ∧ (chargeUsage i retries s).loader = s.loader ∧
    (chargeUsage i retries s).shadow = s.shadow := by
  unfold chargeUsage; dsimp only; (repeat' split) <;> simp

end Sys2Proof.Machine
end

