-- ==== Sys2Proof/Laws/FrameLists.lean ====
section
/-! SUPPORT. Frames: the parts of the state that each operation leaves as they were, for the pool, the queues, the hold lists and the handoff controller. -/

namespace Sys2Proof.Machine

open Sys2Proof

/-! ### Machine/Pool.lean -/

@[simp] theorem testLowWater_frame (l : Link) (s : State) : (testLowWater l s).pending = s.pending ∧ (testLowWater l
    s).out = s.out ∧ (testLowWater l s).admission = s.admission ∧ (testLowWater l s).entries = s.entries ∧
    (testLowWater l s).game = s.game ∧ (testLowWater l s).clock = s.clock ∧ (testLowWater l s).stations = s.stations
    ∧ (testLowWater l s).handoff = s.handoff ∧ (testLowWater l s).image = s.image ∧ (testLowWater l s).gate = s.gate
    ∧ (testLowWater l s).loader = s.loader ∧ (testLowWater l s).shadow = s.shadow := by
  unfold testLowWater; dsimp only; (repeat' split) <;> simp

@[simp] theorem setDirectQueued_frame (l : Link) (n : ℕ) (s : State) : (setDirectQueued l n s).pending = s.pending ∧
    (setDirectQueued l n s).out = s.out ∧ (setDirectQueued l n s).admission = s.admission ∧ (setDirectQueued l n
    s).entries = s.entries ∧ (setDirectQueued l n s).game = s.game ∧ (setDirectQueued l n s).clock = s.clock ∧
    (setDirectQueued l n s).stations = s.stations ∧ (setDirectQueued l n s).handoff = s.handoff ∧ (setDirectQueued l
    n s).image = s.image ∧ (setDirectQueued l n s).gate = s.gate ∧ (setDirectQueued l n s).loader = s.loader ∧
    (setDirectQueued l n s).shadow = s.shadow := by
  simp [setDirectQueued]

@[simp] theorem countJoin_frame (l : Link) (i : ℕ) (s : State) : (countJoin l i s).pending = s.pending ∧ (countJoin
    l i s).out = s.out ∧ (countJoin l i s).admission = s.admission ∧ (countJoin l i s).entries = s.entries ∧
    (countJoin l i s).game = s.game ∧ (countJoin l i s).clock = s.clock ∧ (countJoin l i s).stations = s.stations ∧
    (countJoin l i s).handoff = s.handoff ∧ (countJoin l i s).image = s.image ∧ (countJoin l i s).gate = s.gate ∧
    (countJoin l i s).loader = s.loader ∧ (countJoin l i s).shadow = s.shadow := by
  unfold countJoin; (repeat' split) <;> simp

@[simp] theorem countLeave_frame (l : Link) (i : ℕ) (s : State) : (countLeave l i s).pending = s.pending ∧
    (countLeave l i s).out = s.out ∧ (countLeave l i s).admission = s.admission ∧ (countLeave l i s).entries =
    s.entries ∧ (countLeave l i s).game = s.game ∧ (countLeave l i s).clock = s.clock ∧ (countLeave l i s).stations
    = s.stations ∧ (countLeave l i s).handoff = s.handoff ∧ (countLeave l i s).image = s.image ∧ (countLeave l i
    s).gate = s.gate ∧ (countLeave l i s).loader = s.loader ∧ (countLeave l i s).shadow = s.shadow := by
  unfold countLeave; (repeat' split) <;> simp

@[simp] theorem markQueued_frame (i : ℕ) (s : State) : (markQueued i s).pending = s.pending ∧ (markQueued i s).out =
    s.out ∧ (markQueued i s).bus = s.bus ∧ (markQueued i s).admission = s.admission ∧ (markQueued i s).links =
    s.links ∧ (markQueued i s).game = s.game ∧ (markQueued i s).clock = s.clock ∧ (markQueued i s).stations =
    s.stations ∧ (markQueued i s).handoff = s.handoff ∧ (markQueued i s).image = s.image ∧ (markQueued i s).gate =
    s.gate ∧ (markQueued i s).events = s.events ∧ (markQueued i s).loader = s.loader ∧ (markQueued i s).shadow =
    s.shadow := by
  simp [markQueued]

@[simp] theorem joinQueue_frame (l : Link) (c : Cls) (i : ℕ) (s : State) : (joinQueue l c i s).pending = s.pending ∧
    (joinQueue l c i s).out = s.out ∧ (joinQueue l c i s).admission = s.admission ∧ (joinQueue l c i s).game =
    s.game ∧ (joinQueue l c i s).clock = s.clock ∧ (joinQueue l c i s).stations = s.stations ∧ (joinQueue l c i
    s).handoff = s.handoff ∧ (joinQueue l c i s).image = s.image ∧ (joinQueue l c i s).gate = s.gate ∧ (joinQueue l
    c i s).loader = s.loader ∧ (joinQueue l c i s).shadow = s.shadow := by
  simp [joinQueue]

@[simp] theorem movePoint_frame (st : StationId) (l : Link) (c : Cls) (i : ℕ) (s : State) : (movePoint st l c i
    s).pending = s.pending ∧ (movePoint st l c i s).out = s.out ∧ (movePoint st l c i s).bus = s.bus ∧ (movePoint st
    l c i s).admission = s.admission ∧ (movePoint st l c i s).entries = s.entries ∧ (movePoint st l c i s).game =
    s.game ∧ (movePoint st l c i s).clock = s.clock ∧ (movePoint st l c i s).stations = s.stations ∧ (movePoint st l
    c i s).handoff = s.handoff ∧ (movePoint st l c i s).image = s.image ∧ (movePoint st l c i s).gate = s.gate ∧
    (movePoint st l c i s).events = s.events ∧ (movePoint st l c i s).loader = s.loader ∧ (movePoint st l c i
    s).shadow = s.shadow := by
  simp [movePoint]

@[simp] theorem joinAtPoint_frame (st : StationId) (l : Link) (c : Cls) (i : ℕ) (s : State) : (joinAtPoint st l c i
    s).pending = s.pending ∧ (joinAtPoint st l c i s).out = s.out ∧ (joinAtPoint st l c i s).admission = s.admission
    ∧ (joinAtPoint st l c i s).game = s.game ∧ (joinAtPoint st l c i s).clock = s.clock ∧ (joinAtPoint st l c i
    s).stations = s.stations ∧ (joinAtPoint st l c i s).handoff = s.handoff ∧ (joinAtPoint st l c i s).image =
    s.image ∧ (joinAtPoint st l c i s).gate = s.gate ∧ (joinAtPoint st l c i s).loader = s.loader ∧ (joinAtPoint st
    l c i s).shadow = s.shadow := by
  simp [joinAtPoint]

@[simp] theorem clearPointsOn_frame (st : StationId) (l : Link) (s : State) : (clearPointsOn st l s).pending =
    s.pending ∧ (clearPointsOn st l s).out = s.out ∧ (clearPointsOn st l s).bus = s.bus ∧ (clearPointsOn st l
    s).admission = s.admission ∧ (clearPointsOn st l s).entries = s.entries ∧ (clearPointsOn st l s).game = s.game ∧
    (clearPointsOn st l s).clock = s.clock ∧ (clearPointsOn st l s).stations = s.stations ∧ (clearPointsOn st l
    s).handoff = s.handoff ∧ (clearPointsOn st l s).image = s.image ∧ (clearPointsOn st l s).gate = s.gate ∧
    (clearPointsOn st l s).events = s.events ∧ (clearPointsOn st l s).loader = s.loader ∧ (clearPointsOn st l
    s).shadow = s.shadow := by
  simp [clearPointsOn]

@[simp] theorem clearPoints_frame (st : StationId) (s : State) : (clearPoints st s).pending = s.pending ∧
    (clearPoints st s).out = s.out ∧ (clearPoints st s).bus = s.bus ∧ (clearPoints st s).admission = s.admission ∧
    (clearPoints st s).entries = s.entries ∧ (clearPoints st s).game = s.game ∧ (clearPoints st s).clock = s.clock ∧
    (clearPoints st s).stations = s.stations ∧ (clearPoints st s).handoff = s.handoff ∧ (clearPoints st s).image =
    s.image ∧ (clearPoints st s).gate = s.gate ∧ (clearPoints st s).events = s.events ∧ (clearPoints st s).loader =
    s.loader ∧ (clearPoints st s).shadow = s.shadow := by
  simp [clearPoints]

@[simp] theorem leaveQueue_frame (l : Link) (c : Cls) (i : ℕ) (s : State) : (leaveQueue l c i s).pending = s.pending
    ∧ (leaveQueue l c i s).out = s.out ∧ (leaveQueue l c i s).admission = s.admission ∧ (leaveQueue l c i s).entries
    = s.entries ∧ (leaveQueue l c i s).game = s.game ∧ (leaveQueue l c i s).clock = s.clock ∧ (leaveQueue l c i
    s).stations = s.stations ∧ (leaveQueue l c i s).handoff = s.handoff ∧ (leaveQueue l c i s).image = s.image ∧
    (leaveQueue l c i s).gate = s.gate ∧ (leaveQueue l c i s).loader = s.loader ∧ (leaveQueue l c i s).shadow =
    s.shadow := by
  simp [leaveQueue]

@[simp] theorem setHoldList_frame (st : StationId) (q : List ℕ) (s : State) : (setHoldList st q s).pending =
    s.pending ∧ (setHoldList st q s).out = s.out ∧ (setHoldList st q s).bus = s.bus ∧ (setHoldList st q s).admission
    = s.admission ∧ (setHoldList st q s).entries = s.entries ∧ (setHoldList st q s).links = s.links ∧ (setHoldList
    st q s).game = s.game ∧ (setHoldList st q s).clock = s.clock ∧ (setHoldList st q s).handoff = s.handoff ∧
    (setHoldList st q s).image = s.image ∧ (setHoldList st q s).gate = s.gate ∧ (setHoldList st q s).events =
    s.events ∧ (setHoldList st q s).loader = s.loader ∧ (setHoldList st q s).shadow = s.shadow := by
  simp [setHoldList]

@[simp] theorem markHeld_frame (i : ℕ) (s : State) : (markHeld i s).pending = s.pending ∧ (markHeld i s).out = s.out
    ∧ (markHeld i s).bus = s.bus ∧ (markHeld i s).admission = s.admission ∧ (markHeld i s).links = s.links ∧
    (markHeld i s).game = s.game ∧ (markHeld i s).clock = s.clock ∧ (markHeld i s).stations = s.stations ∧ (markHeld
    i s).handoff = s.handoff ∧ (markHeld i s).image = s.image ∧ (markHeld i s).gate = s.gate ∧ (markHeld i s).events
    = s.events ∧ (markHeld i s).loader = s.loader ∧ (markHeld i s).shadow = s.shadow := by
  simp [markHeld]

@[simp] theorem holdTail_frame (st : StationId) (i : ℕ) (s : State) : (holdTail st i s).pending = s.pending ∧
    (holdTail st i s).out = s.out ∧ (holdTail st i s).bus = s.bus ∧ (holdTail st i s).admission = s.admission ∧
    (holdTail st i s).links = s.links ∧ (holdTail st i s).game = s.game ∧ (holdTail st i s).clock = s.clock ∧
    (holdTail st i s).handoff = s.handoff ∧ (holdTail st i s).image = s.image ∧ (holdTail st i s).gate = s.gate ∧
    (holdTail st i s).events = s.events ∧ (holdTail st i s).loader = s.loader ∧ (holdTail st i s).shadow = s.shadow
    := by
  simp [holdTail]

@[simp] theorem holdByStamp_frame (st : StationId) (i : ℕ) (s : State) : (holdByStamp st i s).pending = s.pending ∧
    (holdByStamp st i s).out = s.out ∧ (holdByStamp st i s).bus = s.bus ∧ (holdByStamp st i s).admission =
    s.admission ∧ (holdByStamp st i s).links = s.links ∧ (holdByStamp st i s).game = s.game ∧ (holdByStamp st i
    s).clock = s.clock ∧ (holdByStamp st i s).handoff = s.handoff ∧ (holdByStamp st i s).image = s.image ∧
    (holdByStamp st i s).gate = s.gate ∧ (holdByStamp st i s).events = s.events ∧ (holdByStamp st i s).loader =
    s.loader ∧ (holdByStamp st i s).shadow = s.shadow := by
  simp [holdByStamp]

@[simp] theorem leaveHold_frame (st : StationId) (i : ℕ) (s : State) : (leaveHold st i s).pending = s.pending ∧
    (leaveHold st i s).out = s.out ∧ (leaveHold st i s).bus = s.bus ∧ (leaveHold st i s).admission = s.admission ∧
    (leaveHold st i s).entries = s.entries ∧ (leaveHold st i s).links = s.links ∧ (leaveHold st i s).game = s.game ∧
    (leaveHold st i s).clock = s.clock ∧ (leaveHold st i s).handoff = s.handoff ∧ (leaveHold st i s).image = s.image
    ∧ (leaveHold st i s).gate = s.gate ∧ (leaveHold st i s).events = s.events ∧ (leaveHold st i s).loader = s.loader
    ∧ (leaveHold st i s).shadow = s.shadow := by
  simp [leaveHold]

@[simp] theorem writeSlotStatus_frame (l : Link) (slot : ℕ) (st : SlotStatus) (s : State) : (writeSlotStatus l slot
    st s).pending = s.pending ∧ (writeSlotStatus l slot st s).out = s.out ∧ (writeSlotStatus l slot st s).admission
    = s.admission ∧ (writeSlotStatus l slot st s).entries = s.entries ∧ (writeSlotStatus l slot st s).links =
    s.links ∧ (writeSlotStatus l slot st s).game = s.game ∧ (writeSlotStatus l slot st s).clock = s.clock ∧
    (writeSlotStatus l slot st s).stations = s.stations ∧ (writeSlotStatus l slot st s).handoff = s.handoff ∧
    (writeSlotStatus l slot st s).image = s.image ∧ (writeSlotStatus l slot st s).gate = s.gate ∧ (writeSlotStatus l
    slot st s).events = s.events ∧ (writeSlotStatus l slot st s).loader = s.loader ∧ (writeSlotStatus l slot st
    s).shadow = s.shadow := by
  simp [writeSlotStatus]

@[simp] theorem beginFill_frame (st : StationId) (b : ℕ) (s : State) : (beginFill st b s).pending = s.pending ∧
    (beginFill st b s).out = s.out ∧ (beginFill st b s).admission = s.admission ∧ (beginFill st b s).entries =
    s.entries ∧ (beginFill st b s).links = s.links ∧ (beginFill st b s).game = s.game ∧ (beginFill st b s).clock =
    s.clock ∧ (beginFill st b s).image = s.image ∧ (beginFill st b s).gate = s.gate ∧ (beginFill st b s).events =
    s.events ∧ (beginFill st b s).loader = s.loader ∧ (beginFill st b s).shadow = s.shadow := by
  simp [beginFill]

@[simp] theorem waitMarker_frame (st : StationId) (p : MarkerPhase) (s : State) : (waitMarker st p s).pending =
    s.pending ∧ (waitMarker st p s).out = s.out ∧ (waitMarker st p s).bus = s.bus ∧ (waitMarker st p s).admission =
    s.admission ∧ (waitMarker st p s).entries = s.entries ∧ (waitMarker st p s).links = s.links ∧ (waitMarker st p
    s).game = s.game ∧ (waitMarker st p s).clock = s.clock ∧ (waitMarker st p s).image = s.image ∧ (waitMarker st p
    s).gate = s.gate ∧ (waitMarker st p s).events = s.events ∧ (waitMarker st p s).loader = s.loader ∧ (waitMarker
    st p s).shadow = s.shadow := by
  simp [waitMarker]

@[simp] theorem testEmission_frame (st : StationId) (s : State) : (testEmission st s).pending = s.pending ∧
    (testEmission st s).out = s.out ∧ (testEmission st s).admission = s.admission ∧ (testEmission st s).entries =
    s.entries ∧ (testEmission st s).links = s.links ∧ (testEmission st s).game = s.game ∧ (testEmission st s).clock
    = s.clock ∧ (testEmission st s).image = s.image ∧ (testEmission st s).gate = s.gate ∧ (testEmission st s).events
    = s.events ∧ (testEmission st s).loader = s.loader ∧ (testEmission st s).shadow = s.shadow := by
  unfold testEmission; (repeat' split) <;> simp

@[simp] theorem noteRelease_frame (s : State) : (noteRelease s).pending = s.pending ∧ (noteRelease s).out = s.out ∧
    (noteRelease s).bus = s.bus ∧ (noteRelease s).entries = s.entries ∧ (noteRelease s).links = s.links ∧
    (noteRelease s).game = s.game ∧ (noteRelease s).clock = s.clock ∧ (noteRelease s).stations = s.stations ∧
    (noteRelease s).handoff = s.handoff ∧ (noteRelease s).image = s.image ∧ (noteRelease s).gate = s.gate ∧
    (noteRelease s).events = s.events ∧ (noteRelease s).loader = s.loader ∧ (noteRelease s).shadow = s.shadow := by
  unfold noteRelease; (repeat' split) <;> simp

@[simp] theorem lowerForward_frame (e : Entry) (s : State) : (lowerForward e s).pending = s.pending ∧ (lowerForward
    e s).out = s.out ∧ (lowerForward e s).admission = s.admission ∧ (lowerForward e s).entries = s.entries ∧
    (lowerForward e s).links = s.links ∧ (lowerForward e s).game = s.game ∧ (lowerForward e s).clock = s.clock ∧
    (lowerForward e s).image = s.image ∧ (lowerForward e s).gate = s.gate ∧ (lowerForward e s).events = s.events ∧
    (lowerForward e s).loader = s.loader ∧ (lowerForward e s).shadow = s.shadow := by
  unfold lowerForward; dsimp only; (repeat' split) <;> simp

@[simp] theorem freeEntry_frame (i : ℕ) (s : State) : (freeEntry i s).pending = s.pending ∧ (freeEntry i s).out =
    s.out ∧ (freeEntry i s).links = s.links ∧ (freeEntry i s).game = s.game ∧ (freeEntry i s).clock = s.clock ∧
    (freeEntry i s).image = s.image ∧ (freeEntry i s).gate = s.gate ∧ (freeEntry i s).events = s.events ∧ (freeEntry
    i s).loader = s.loader ∧ (freeEntry i s).shadow = s.shadow := by
  unfold freeEntry; dsimp only; (repeat' split) <;> simp

@[simp] theorem writeEntryStatus_frame (i : ℕ) (st : SlotStatus) (s : State) : (writeEntryStatus i st s).pending =
    s.pending ∧ (writeEntryStatus i st s).out = s.out ∧ (writeEntryStatus i st s).admission = s.admission ∧
    (writeEntryStatus i st s).entries = s.entries ∧ (writeEntryStatus i st s).links = s.links ∧ (writeEntryStatus i
    st s).game = s.game ∧ (writeEntryStatus i st s).clock = s.clock ∧ (writeEntryStatus i st s).stations =
    s.stations ∧ (writeEntryStatus i st s).handoff = s.handoff ∧ (writeEntryStatus i st s).image = s.image ∧
    (writeEntryStatus i st s).gate = s.gate ∧ (writeEntryStatus i st s).events = s.events ∧ (writeEntryStatus i st
    s).loader = s.loader ∧ (writeEntryStatus i st s).shadow = s.shadow := by
  unfold writeEntryStatus; (repeat' split) <;> simp

@[simp] theorem nullifyEntry_frame (i : ℕ) (st : SlotStatus) (s : State) : (nullifyEntry i st s).pending = s.pending
    ∧ (nullifyEntry i st s).out = s.out ∧ (nullifyEntry i st s).links = s.links ∧ (nullifyEntry i st s).game =
    s.game ∧ (nullifyEntry i st s).clock = s.clock ∧ (nullifyEntry i st s).image = s.image ∧ (nullifyEntry i st
    s).gate = s.gate ∧ (nullifyEntry i st s).events = s.events ∧ (nullifyEntry i st s).loader = s.loader ∧
    (nullifyEntry i st s).shadow = s.shadow := by
  simp [nullifyEntry]

@[simp] theorem raiseHoldDrop_frame (i : ℕ) (s : State) : (raiseHoldDrop i s).pending = s.pending ∧ (raiseHoldDrop i
    s).out = s.out ∧ (raiseHoldDrop i s).admission = s.admission ∧ (raiseHoldDrop i s).entries = s.entries ∧
    (raiseHoldDrop i s).links = s.links ∧ (raiseHoldDrop i s).game = s.game ∧ (raiseHoldDrop i s).clock = s.clock ∧
    (raiseHoldDrop i s).stations = s.stations ∧ (raiseHoldDrop i s).handoff = s.handoff ∧ (raiseHoldDrop i s).image
    = s.image ∧ (raiseHoldDrop i s).gate = s.gate ∧ (raiseHoldDrop i s).loader = s.loader ∧ (raiseHoldDrop i
    s).shadow = s.shadow := by
  unfold raiseHoldDrop; (repeat' split) <;> simp

@[simp] theorem dropHeld_frame (i : ℕ) (s : State) : (dropHeld i s).pending = s.pending ∧ (dropHeld i s).out = s.out
    ∧ (dropHeld i s).links = s.links ∧ (dropHeld i s).game = s.game ∧ (dropHeld i s).clock = s.clock ∧ (dropHeld i
    s).image = s.image ∧ (dropHeld i s).gate = s.gate ∧ (dropHeld i s).loader = s.loader ∧ (dropHeld i s).shadow =
    s.shadow := by
  simp [dropHeld]

@[simp] theorem takeEntry_frame (i : ℕ) (e : Entry) (s : State) : (takeEntry i e s).pending = s.pending ∧ (takeEntry
    i e s).out = s.out ∧ (takeEntry i e s).bus = s.bus ∧ (takeEntry i e s).links = s.links ∧ (takeEntry i e s).game
    = s.game ∧ (takeEntry i e s).clock = s.clock ∧ (takeEntry i e s).stations = s.stations ∧ (takeEntry i e
    s).handoff = s.handoff ∧ (takeEntry i e s).image = s.image ∧ (takeEntry i e s).gate = s.gate ∧ (takeEntry i e
    s).events = s.events ∧ (takeEntry i e s).loader = s.loader ∧ (takeEntry i e s).shadow = s.shadow := by
  simp [takeEntry]

@[simp] theorem nullifyQueued_frame (st : SlotStatus) (p : Link × Cls × ℕ) (s : State) : (nullifyQueued st p
    s).pending = s.pending ∧ (nullifyQueued st p s).out = s.out ∧ (nullifyQueued st p s).game = s.game ∧
    (nullifyQueued st p s).clock = s.clock ∧ (nullifyQueued st p s).image = s.image ∧ (nullifyQueued st p s).gate =
    s.gate ∧ (nullifyQueued st p s).loader = s.loader ∧ (nullifyQueued st p s).shadow = s.shadow := by
  simp [nullifyQueued]

/-! ### Machine/Handoff.lean -/

@[simp] theorem enterState_frame (st : StationId) (h : HandoffState) (s : State) : (enterState st h s).pending =
    s.pending ∧ (enterState st h s).out = s.out ∧ (enterState st h s).admission = s.admission ∧ (enterState st h
    s).entries = s.entries ∧ (enterState st h s).links = s.links ∧ (enterState st h s).game = s.game ∧ (enterState
    st h s).clock = s.clock ∧ (enterState st h s).handoff = s.handoff ∧ (enterState st h s).image = s.image ∧
    (enterState st h s).events = s.events ∧ (enterState st h s).loader = s.loader ∧ (enterState st h s).shadow =
    s.shadow := by
  simp [enterState]

@[simp] theorem raiseChange_frame (st : StationId) (old : HandoffState) (count : ℕ) (s : State) : (raiseChange st
    old count s).pending = s.pending ∧ (raiseChange st old count s).out = s.out ∧ (raiseChange st old count
    s).admission = s.admission ∧ (raiseChange st old count s).entries = s.entries ∧ (raiseChange st old count
    s).links = s.links ∧ (raiseChange st old count s).game = s.game ∧ (raiseChange st old count s).clock = s.clock ∧
    (raiseChange st old count s).stations = s.stations ∧ (raiseChange st old count s).handoff = s.handoff ∧
    (raiseChange st old count s).image = s.image ∧ (raiseChange st old count s).gate = s.gate ∧ (raiseChange st old
    count s).loader = s.loader ∧ (raiseChange st old count s).shadow = s.shadow := by
  simp [raiseChange]

@[simp] theorem changeState_frame (st : StationId) (h : HandoffState) (count : ℕ) (s : State) : (changeState st h
    count s).pending = s.pending ∧ (changeState st h count s).out = s.out ∧ (changeState st h count s).admission =
    s.admission ∧ (changeState st h count s).entries = s.entries ∧ (changeState st h count s).links = s.links ∧
    (changeState st h count s).game = s.game ∧ (changeState st h count s).clock = s.clock ∧ (changeState st h count
    s).handoff = s.handoff ∧ (changeState st h count s).image = s.image ∧ (changeState st h count s).loader =
    s.loader ∧ (changeState st h count s).shadow = s.shadow := by
  simp [changeState]

@[simp] theorem changeWith_frame (st : StationId) (h : HandoffState) (op : Operation) (s : State) : (changeWith st h
    op s).pending = s.pending ∧ (changeWith st h op s).out = s.out ∧ (changeWith st h op s).admission = s.admission
    ∧ (changeWith st h op s).entries = s.entries ∧ (changeWith st h op s).game = s.game ∧ (changeWith st h op
    s).clock = s.clock ∧ (changeWith st h op s).handoff = s.handoff ∧ (changeWith st h op s).image = s.image ∧
    (changeWith st h op s).loader = s.loader ∧ (changeWith st h op s).shadow = s.shadow := by
  simp [changeWith]

@[simp] theorem endOperation_frame (st : StationId) (s : State) : (endOperation st s).pending = s.pending ∧
    (endOperation st s).out = s.out ∧ (endOperation st s).admission = s.admission ∧ (endOperation st s).entries =
    s.entries ∧ (endOperation st s).links = s.links ∧ (endOperation st s).game = s.game ∧ (endOperation st s).clock
    = s.clock ∧ (endOperation st s).handoff = s.handoff ∧ (endOperation st s).image = s.image ∧ (endOperation st
    s).gate = s.gate ∧ (endOperation st s).loader = s.loader ∧ (endOperation st s).shadow = s.shadow := by
  simp [endOperation]

@[simp] theorem startTimer_frame (st : StationId) (k : TimerKind) (n : ℕ) (s : State) : (startTimer st k n
    s).pending = s.pending ∧ (startTimer st k n s).out = s.out ∧ (startTimer st k n s).bus = s.bus ∧ (startTimer st
    k n s).admission = s.admission ∧ (startTimer st k n s).entries = s.entries ∧ (startTimer st k n s).links =
    s.links ∧ (startTimer st k n s).game = s.game ∧ (startTimer st k n s).clock = s.clock ∧ (startTimer st k n
    s).handoff = s.handoff ∧ (startTimer st k n s).image = s.image ∧ (startTimer st k n s).gate = s.gate ∧
    (startTimer st k n s).events = s.events ∧ (startTimer st k n s).loader = s.loader ∧ (startTimer st k n s).shadow
    = s.shadow := by
  simp [startTimer]

@[simp] theorem stopTimerOf_frame (st : StationId) (s : State) : (stopTimerOf st s).pending = s.pending ∧
    (stopTimerOf st s).out = s.out ∧ (stopTimerOf st s).bus = s.bus ∧ (stopTimerOf st s).admission = s.admission ∧
    (stopTimerOf st s).entries = s.entries ∧ (stopTimerOf st s).links = s.links ∧ (stopTimerOf st s).game = s.game ∧
    (stopTimerOf st s).clock = s.clock ∧ (stopTimerOf st s).handoff = s.handoff ∧ (stopTimerOf st s).image = s.image
    ∧ (stopTimerOf st s).gate = s.gate ∧ (stopTimerOf st s).events = s.events ∧ (stopTimerOf st s).loader = s.loader
    ∧ (stopTimerOf st s).shadow = s.shadow := by
  simp [stopTimerOf]

@[simp] theorem setEarly_frame (st : StationId) (m : Option Byte) (s : State) : (setEarly st m s).pending =
    s.pending ∧ (setEarly st m s).out = s.out ∧ (setEarly st m s).bus = s.bus ∧ (setEarly st m s).admission =
    s.admission ∧ (setEarly st m s).entries = s.entries ∧ (setEarly st m s).links = s.links ∧ (setEarly st m s).game
    = s.game ∧ (setEarly st m s).clock = s.clock ∧ (setEarly st m s).handoff = s.handoff ∧ (setEarly st m s).image =
    s.image ∧ (setEarly st m s).gate = s.gate ∧ (setEarly st m s).events = s.events ∧ (setEarly st m s).loader =
    s.loader ∧ (setEarly st m s).shadow = s.shadow := by
  simp [setEarly]

@[simp] theorem takeSequence_frame (st : StationId) (s : State) : (takeSequence st s).pending = s.pending ∧
    (takeSequence st s).out = s.out ∧ (takeSequence st s).bus = s.bus ∧ (takeSequence st s).admission = s.admission
    ∧ (takeSequence st s).entries = s.entries ∧ (takeSequence st s).links = s.links ∧ (takeSequence st s).game =
    s.game ∧ (takeSequence st s).clock = s.clock ∧ (takeSequence st s).handoff = s.handoff ∧ (takeSequence st
    s).image = s.image ∧ (takeSequence st s).gate = s.gate ∧ (takeSequence st s).events = s.events ∧ (takeSequence
    st s).loader = s.loader ∧ (takeSequence st s).shadow = s.shadow := by
  simp [takeSequence]

@[simp] theorem departStation_frame (st : StationId) (s : State) : (departStation st s).pending = s.pending ∧
    (departStation st s).out = s.out ∧ (departStation st s).admission = s.admission ∧ (departStation st s).entries =
    s.entries ∧ (departStation st s).game = s.game ∧ (departStation st s).clock = s.clock ∧ (departStation st
    s).handoff = s.handoff ∧ (departStation st s).image = s.image ∧ (departStation st s).loader = s.loader ∧
    (departStation st s).shadow = s.shadow := by
  simp [departStation]

@[simp] theorem evictResident_frame (st : StationId) (s : State) : (evictResident st s).pending = s.pending ∧
    (evictResident st s).out = s.out ∧ (evictResident st s).game = s.game ∧ (evictResident st s).clock = s.clock ∧
    (evictResident st s).image = s.image ∧ (evictResident st s).loader = s.loader ∧ (evictResident st s).shadow =
    s.shadow := by
  simp [evictResident]

@[simp] theorem releaseStation_frame (st : StationId) (s : State) : (releaseStation st s).pending = s.pending ∧
    (releaseStation st s).out = s.out ∧ (releaseStation st s).admission = s.admission ∧ (releaseStation st
    s).entries = s.entries ∧ (releaseStation st s).links = s.links ∧ (releaseStation st s).game = s.game ∧
    (releaseStation st s).clock = s.clock ∧ (releaseStation st s).image = s.image ∧ (releaseStation st s).loader =
    s.loader ∧ (releaseStation st s).shadow = s.shadow := by
  simp [releaseStation]

@[simp] theorem arriveStation_frame (st : StationId) (s : State) : (arriveStation st s).pending = s.pending ∧
    (arriveStation st s).out = s.out ∧ (arriveStation st s).admission = s.admission ∧ (arriveStation st s).entries =
    s.entries ∧ (arriveStation st s).links = s.links ∧ (arriveStation st s).game = s.game ∧ (arriveStation st
    s).clock = s.clock ∧ (arriveStation st s).handoff = s.handoff ∧ (arriveStation st s).image = s.image ∧
    (arriveStation st s).loader = s.loader ∧ (arriveStation st s).shadow = s.shadow := by
  unfold arriveStation; dsimp only; (repeat' split) <;> simp

@[simp] theorem setResult_frame (st : StationId) (r : Result) (s : State) : (setResult st r s).pending = s.pending ∧
    (setResult st r s).out = s.out ∧ (setResult st r s).bus = s.bus ∧ (setResult st r s).admission = s.admission ∧
    (setResult st r s).entries = s.entries ∧ (setResult st r s).links = s.links ∧ (setResult st r s).game = s.game ∧
    (setResult st r s).clock = s.clock ∧ (setResult st r s).handoff = s.handoff ∧ (setResult st r s).image = s.image
    ∧ (setResult st r s).gate = s.gate ∧ (setResult st r s).events = s.events ∧ (setResult st r s).loader = s.loader
    ∧ (setResult st r s).shadow = s.shadow := by
  simp [setResult]

@[simp] theorem judgeRequest_frame (st : StationId) (r : Request) (s : State) : (judgeRequest st r s).pending =
    s.pending ∧ (judgeRequest st r s).out = s.out ∧ (judgeRequest st r s).game = s.game ∧ (judgeRequest st r
    s).clock = s.clock ∧ (judgeRequest st r s).image = s.image ∧ (judgeRequest st r s).loader = s.loader ∧
    (judgeRequest st r s).shadow = s.shadow := by
  unfold judgeRequest
  split
  next f h =>
    have k : (f s).pending = s.pending ∧ (f s).out = s.out ∧ (f s).game = s.game ∧ (f s).clock = s.clock ∧ (f
        s).image = s.image ∧ (f s).loader = s.loader ∧ (f s).shadow = s.shadow := by
      unfold requestEffect at h
      split at h <;> first | (cases h; simp) | simp at h
    simp [k]
  next => simp

@[simp] theorem countMoved_frame (st : StationId) (s : State) : (countMoved st s).pending = s.pending ∧ (countMoved
    st s).out = s.out ∧ (countMoved st s).bus = s.bus ∧ (countMoved st s).admission = s.admission ∧ (countMoved st
    s).entries = s.entries ∧ (countMoved st s).links = s.links ∧ (countMoved st s).game = s.game ∧ (countMoved st
    s).clock = s.clock ∧ (countMoved st s).handoff = s.handoff ∧ (countMoved st s).image = s.image ∧ (countMoved st
    s).gate = s.gate ∧ (countMoved st s).events = s.events ∧ (countMoved st s).loader = s.loader ∧ (countMoved st
    s).shadow = s.shadow := by
  simp [countMoved]

@[simp] theorem sweepOverflow_frame (st : StationId) (i : ℕ) (s : State) : (sweepOverflow st i s).pending =
    s.pending ∧ (sweepOverflow st i s).out = s.out ∧ (sweepOverflow st i s).links = s.links ∧ (sweepOverflow st i
    s).game = s.game ∧ (sweepOverflow st i s).clock = s.clock ∧ (sweepOverflow st i s).image = s.image ∧
    (sweepOverflow st i s).gate = s.gate ∧ (sweepOverflow st i s).loader = s.loader ∧ (sweepOverflow st i s).shadow
    = s.shadow := by
  unfold sweepOverflow; (repeat' split) <;> simp

@[simp] theorem sweepOnce_frame (st : StationId) (s : State) : (sweepOnce st s).pending = s.pending ∧ (sweepOnce st
    s).out = s.out ∧ (sweepOnce st s).game = s.game ∧ (sweepOnce st s).clock = s.clock ∧ (sweepOnce st s).image =
    s.image ∧ (sweepOnce st s).gate = s.gate ∧ (sweepOnce st s).loader = s.loader ∧ (sweepOnce st s).shadow =
    s.shadow := by
  unfold sweepOnce; dsimp only; (repeat' split) <;> simp

@[simp] theorem takeSweepStep_frame (st : StationId) (s : State) : (takeSweepStep st s).pending = s.pending ∧
    (takeSweepStep st s).out = s.out ∧ (takeSweepStep st s).game = s.game ∧ (takeSweepStep st s).clock = s.clock ∧
    (takeSweepStep st s).image = s.image ∧ (takeSweepStep st s).gate = s.gate ∧ (takeSweepStep st s).loader =
    s.loader ∧ (takeSweepStep st s).shadow = s.shadow := by
  unfold takeSweepStep; (repeat' split) <;> simp

@[simp] theorem becomeForwarded_frame (st : StationId) (i : ℕ) (s : State) : (becomeForwarded st i s).pending =
    s.pending ∧ (becomeForwarded st i s).out = s.out ∧ (becomeForwarded st i s).bus = s.bus ∧ (becomeForwarded st i
    s).admission = s.admission ∧ (becomeForwarded st i s).links = s.links ∧ (becomeForwarded st i s).game = s.game ∧
    (becomeForwarded st i s).clock = s.clock ∧ (becomeForwarded st i s).handoff = s.handoff ∧ (becomeForwarded st i
    s).image = s.image ∧ (becomeForwarded st i s).gate = s.gate ∧ (becomeForwarded st i s).events = s.events ∧
    (becomeForwarded st i s).loader = s.loader ∧ (becomeForwarded st i s).shadow = s.shadow := by
  simp [becomeForwarded]

@[simp] theorem placeDrained_frame (op : Operation) (st : StationId) (i : ℕ) (s : State) : (placeDrained op st i
    s).pending = s.pending ∧ (placeDrained op st i s).out = s.out ∧ (placeDrained op st i s).game = s.game ∧
    (placeDrained op st i s).clock = s.clock ∧ (placeDrained op st i s).image = s.image ∧ (placeDrained op st i
    s).gate = s.gate ∧ (placeDrained op st i s).loader = s.loader ∧ (placeDrained op st i s).shadow = s.shadow := by
  unfold placeDrained; dsimp only; (repeat' split) <;> simp

@[simp] theorem endDrain_frame (st : StationId) (s : State) : (endDrain st s).pending = s.pending ∧ (endDrain st
    s).out = s.out ∧ (endDrain st s).admission = s.admission ∧ (endDrain st s).entries = s.entries ∧ (endDrain st
    s).game = s.game ∧ (endDrain st s).clock = s.clock ∧ (endDrain st s).handoff = s.handoff ∧ (endDrain st s).image
    = s.image ∧ (endDrain st s).gate = s.gate ∧ (endDrain st s).loader = s.loader ∧ (endDrain st s).shadow =
    s.shadow := by
  unfold endDrain; dsimp only; (repeat' split) <;> simp

@[simp] theorem drainOnce_frame (st : StationId) (s : State) : (drainOnce st s).pending = s.pending ∧ (drainOnce st
    s).out = s.out ∧ (drainOnce st s).game = s.game ∧ (drainOnce st s).clock = s.clock ∧ (drainOnce st s).image =
    s.image ∧ (drainOnce st s).gate = s.gate ∧ (drainOnce st s).loader = s.loader ∧ (drainOnce st s).shadow =
    s.shadow := by
  unfold drainOnce; (repeat' split) <;> simp

@[simp] theorem takeDrainStep_frame (st : StationId) (s : State) : (takeDrainStep st s).pending = s.pending ∧
    (takeDrainStep st s).out = s.out ∧ (takeDrainStep st s).game = s.game ∧ (takeDrainStep st s).clock = s.clock ∧
    (takeDrainStep st s).image = s.image ∧ (takeDrainStep st s).gate = s.gate ∧ (takeDrainStep st s).loader =
    s.loader ∧ (takeDrainStep st s).shadow = s.shadow := by
  unfold takeDrainStep; (repeat' split) <;> simp

@[simp] theorem expireHold_frame (st : StationId) (s : State) : (expireHold st s).pending = s.pending ∧ (expireHold
    st s).out = s.out ∧ (expireHold st s).admission = s.admission ∧ (expireHold st s).entries = s.entries ∧
    (expireHold st s).game = s.game ∧ (expireHold st s).clock = s.clock ∧ (expireHold st s).handoff = s.handoff ∧
    (expireHold st s).image = s.image ∧ (expireHold st s).loader = s.loader ∧ (expireHold st s).shadow = s.shadow :=
    by
  unfold expireHold; (repeat' split) <;> simp

@[simp] theorem expireForward_frame (st : StationId) (s : State) : (expireForward st s).pending = s.pending ∧
    (expireForward st s).out = s.out ∧ (expireForward st s).admission = s.admission ∧ (expireForward st s).entries =
    s.entries ∧ (expireForward st s).links = s.links ∧ (expireForward st s).game = s.game ∧ (expireForward st
    s).clock = s.clock ∧ (expireForward st s).image = s.image ∧ (expireForward st s).loader = s.loader ∧
    (expireForward st s).shadow = s.shadow := by
  unfold expireForward; (repeat' split) <;> simp

@[simp] theorem expireArrival_frame (st : StationId) (s : State) : (expireArrival st s).pending = s.pending ∧
    (expireArrival st s).out = s.out ∧ (expireArrival st s).admission = s.admission ∧ (expireArrival st s).entries =
    s.entries ∧ (expireArrival st s).game = s.game ∧ (expireArrival st s).clock = s.clock ∧ (expireArrival st
    s).handoff = s.handoff ∧ (expireArrival st s).image = s.image ∧ (expireArrival st s).loader = s.loader ∧
    (expireArrival st s).shadow = s.shadow := by
  unfold expireArrival; (repeat' split) <;> simp

@[simp] theorem takeMarkerEntry_frame (st : StationId) (i : ℕ) (s : State) : (takeMarkerEntry st i s).pending =
    s.pending ∧ (takeMarkerEntry st i s).out = s.out ∧ (takeMarkerEntry st i s).game = s.game ∧ (takeMarkerEntry st
    i s).clock = s.clock ∧ (takeMarkerEntry st i s).handoff = s.handoff ∧ (takeMarkerEntry st i s).image = s.image ∧
    (takeMarkerEntry st i s).gate = s.gate ∧ (takeMarkerEntry st i s).loader = s.loader ∧ (takeMarkerEntry st i
    s).shadow = s.shadow := by
  simp [takeMarkerEntry]

@[simp] theorem leavePending_frame (st : StationId) (s : State) : (leavePending st s).pending = s.pending ∧
    (leavePending st s).out = s.out ∧ (leavePending st s).bus = s.bus ∧ (leavePending st s).admission = s.admission
    ∧ (leavePending st s).entries = s.entries ∧ (leavePending st s).links = s.links ∧ (leavePending st s).game =
    s.game ∧ (leavePending st s).clock = s.clock ∧ (leavePending st s).stations = s.stations ∧ (leavePending st
    s).image = s.image ∧ (leavePending st s).gate = s.gate ∧ (leavePending st s).events = s.events ∧ (leavePending
    st s).loader = s.loader ∧ (leavePending st s).shadow = s.shadow := by
  simp [leavePending]

@[simp] theorem dropMarker_frame (st : StationId) (s : State) : (dropMarker st s).pending = s.pending ∧ (dropMarker
    st s).out = s.out ∧ (dropMarker st s).bus = s.bus ∧ (dropMarker st s).admission = s.admission ∧ (dropMarker st
    s).entries = s.entries ∧ (dropMarker st s).links = s.links ∧ (dropMarker st s).game = s.game ∧ (dropMarker st
    s).clock = s.clock ∧ (dropMarker st s).image = s.image ∧ (dropMarker st s).gate = s.gate ∧ (dropMarker st
    s).events = s.events ∧ (dropMarker st s).loader = s.loader ∧ (dropMarker st s).shadow = s.shadow := by
  simp [dropMarker]

@[simp] theorem serveBuffer_frame (s : State) : (serveBuffer s).pending = s.pending ∧ (serveBuffer s).out = s.out ∧
    (serveBuffer s).admission = s.admission ∧ (serveBuffer s).entries = s.entries ∧ (serveBuffer s).links = s.links
    ∧ (serveBuffer s).game = s.game ∧ (serveBuffer s).clock = s.clock ∧ (serveBuffer s).image = s.image ∧
    (serveBuffer s).gate = s.gate ∧ (serveBuffer s).events = s.events ∧ (serveBuffer s).loader = s.loader ∧
    (serveBuffer s).shadow = s.shadow := by
  unfold serveBuffer; (repeat' split) <;> simp

@[simp] theorem serveMarkerEntry_frame (s : State) : (serveMarkerEntry s).pending = s.pending ∧ (serveMarkerEntry
    s).out = s.out ∧ (serveMarkerEntry s).game = s.game ∧ (serveMarkerEntry s).clock = s.clock ∧ (serveMarkerEntry
    s).image = s.image ∧ (serveMarkerEntry s).gate = s.gate ∧ (serveMarkerEntry s).loader = s.loader ∧
    (serveMarkerEntry s).shadow = s.shadow := by
  unfold serveMarkerEntry; (repeat' split) <;> simp

@[simp] theorem endFillActive_frame (st : StationId) (s : State) : (endFillActive st s).pending = s.pending ∧
    (endFillActive st s).out = s.out ∧ (endFillActive st s).game = s.game ∧ (endFillActive st s).clock = s.clock ∧
    (endFillActive st s).image = s.image ∧ (endFillActive st s).gate = s.gate ∧ (endFillActive st s).loader =
    s.loader ∧ (endFillActive st s).shadow = s.shadow := by
  unfold endFillActive; (repeat' split) <;> simp

@[simp] theorem detectMarker_frame (st : StationId) (q : Byte) (s : State) : (detectMarker st q s).pending =
    s.pending ∧ (detectMarker st q s).out = s.out ∧ (detectMarker st q s).admission = s.admission ∧ (detectMarker st
    q s).entries = s.entries ∧ (detectMarker st q s).game = s.game ∧ (detectMarker st q s).clock = s.clock ∧
    (detectMarker st q s).handoff = s.handoff ∧ (detectMarker st q s).image = s.image ∧ (detectMarker st q s).loader
    = s.loader ∧ (detectMarker st q s).shadow = s.shadow := by
  unfold detectMarker; dsimp only; (repeat' split) <;> simp

end Sys2Proof.Machine
end

