-- ==== Sys2Proof/Laws/FrameFlow.lean ====
section
/-! SUPPORT. Frames: the parts of the state that each operation leaves as they were, for the admission unit and the airtime scheduler. -/

namespace Sys2Proof.Machine

open Sys2Proof

/-! ### Machine/Admission.lean -/

@[simp] theorem setReady_frame (l : Link) (r : List ℕ) (s : State) : (setReady l r s).pending = s.pending ∧
    (setReady l r s).out = s.out ∧ (setReady l r s).bus = s.bus ∧ (setReady l r s).admission = s.admission ∧
    (setReady l r s).entries = s.entries ∧ (setReady l r s).game = s.game ∧ (setReady l r s).clock = s.clock ∧
    (setReady l r s).stations = s.stations ∧ (setReady l r s).handoff = s.handoff ∧ (setReady l r s).image = s.image
    ∧ (setReady l r s).gate = s.gate ∧ (setReady l r s).events = s.events ∧ (setReady l r s).loader = s.loader ∧
    (setReady l r s).shadow = s.shadow := by
  simp [setReady]

@[simp] theorem reportReady_frame (l : Link) (slot : ℕ) (s : State) : (reportReady l slot s).pending = s.pending ∧
    (reportReady l slot s).out = s.out ∧ (reportReady l slot s).admission = s.admission ∧ (reportReady l slot
    s).entries = s.entries ∧ (reportReady l slot s).game = s.game ∧ (reportReady l slot s).clock = s.clock ∧
    (reportReady l slot s).stations = s.stations ∧ (reportReady l slot s).handoff = s.handoff ∧ (reportReady l slot
    s).image = s.image ∧ (reportReady l slot s).gate = s.gate ∧ (reportReady l slot s).events = s.events ∧
    (reportReady l slot s).loader = s.loader ∧ (reportReady l slot s).shadow = s.shadow := by
  unfold reportReady; (repeat' split) <;> simp

@[simp] theorem advanceCursor_frame (l : Link) (s : State) : (advanceCursor l s).pending = s.pending ∧
    (advanceCursor l s).out = s.out ∧ (advanceCursor l s).bus = s.bus ∧ (advanceCursor l s).admission = s.admission
    ∧ (advanceCursor l s).entries = s.entries ∧ (advanceCursor l s).game = s.game ∧ (advanceCursor l s).clock =
    s.clock ∧ (advanceCursor l s).stations = s.stations ∧ (advanceCursor l s).handoff = s.handoff ∧ (advanceCursor l
    s).image = s.image ∧ (advanceCursor l s).gate = s.gate ∧ (advanceCursor l s).events = s.events ∧ (advanceCursor
    l s).loader = s.loader ∧ (advanceCursor l s).shadow = s.shadow := by
  simp [advanceCursor]

@[simp] theorem issueAdmission_frame (l : Link) (s : State) : (issueAdmission l s).pending = s.pending ∧
    (issueAdmission l s).out = s.out ∧ (issueAdmission l s).admission = s.admission ∧ (issueAdmission l s).entries =
    s.entries ∧ (issueAdmission l s).game = s.game ∧ (issueAdmission l s).clock = s.clock ∧ (issueAdmission l
    s).stations = s.stations ∧ (issueAdmission l s).handoff = s.handoff ∧ (issueAdmission l s).image = s.image ∧
    (issueAdmission l s).gate = s.gate ∧ (issueAdmission l s).events = s.events ∧ (issueAdmission l s).loader =
    s.loader ∧ (issueAdmission l s).shadow = s.shadow := by
  unfold issueAdmission; (repeat' split) <;> simp

@[simp] theorem refuseFrame_frame (l : Link) (slot : ℕ) (st : SlotStatus) (s : State) : (refuseFrame l slot st
    s).pending = s.pending ∧ (refuseFrame l slot st s).out = s.out ∧ (refuseFrame l slot st s).admission =
    s.admission ∧ (refuseFrame l slot st s).entries = s.entries ∧ (refuseFrame l slot st s).links = s.links ∧
    (refuseFrame l slot st s).game = s.game ∧ (refuseFrame l slot st s).clock = s.clock ∧ (refuseFrame l slot st
    s).stations = s.stations ∧ (refuseFrame l slot st s).handoff = s.handoff ∧ (refuseFrame l slot st s).image =
    s.image ∧ (refuseFrame l slot st s).gate = s.gate ∧ (refuseFrame l slot st s).events = s.events ∧ (refuseFrame l
    slot st s).loader = s.loader ∧ (refuseFrame l slot st s).shadow = s.shadow := by
  simp [refuseFrame]

@[simp] theorem placeFrame_frame (i : ℕ) (f : Frame) (p : Placement) (s : State) : (placeFrame i f p s).1.pending =
    s.pending ∧ (placeFrame i f p s).1.out = s.out ∧ (placeFrame i f p s).1.game = s.game ∧ (placeFrame i f p
    s).1.clock = s.clock ∧ (placeFrame i f p s).1.handoff = s.handoff ∧ (placeFrame i f p s).1.image = s.image ∧
    (placeFrame i f p s).1.gate = s.gate ∧ (placeFrame i f p s).1.loader = s.loader ∧ (placeFrame i f p s).1.shadow
    = s.shadow := by
  unfold placeFrame; dsimp only; (repeat' split) <;> simp

@[simp] theorem raiseUnknown_frame (l : Link) (slot : ℕ) (d : List Word) (s : State) : (raiseUnknown l slot d
    s).pending = s.pending ∧ (raiseUnknown l slot d s).out = s.out ∧ (raiseUnknown l slot d s).admission =
    s.admission ∧ (raiseUnknown l slot d s).entries = s.entries ∧ (raiseUnknown l slot d s).links = s.links ∧
    (raiseUnknown l slot d s).game = s.game ∧ (raiseUnknown l slot d s).clock = s.clock ∧ (raiseUnknown l slot d
    s).stations = s.stations ∧ (raiseUnknown l slot d s).handoff = s.handoff ∧ (raiseUnknown l slot d s).image =
    s.image ∧ (raiseUnknown l slot d s).gate = s.gate ∧ (raiseUnknown l slot d s).loader = s.loader ∧ (raiseUnknown
    l slot d s).shadow = s.shadow := by
  unfold raiseUnknown; (repeat' split) <;> simp

@[simp] theorem classify_frame (i : ℕ) (l : Link) (slot : ℕ) (d : List Word) (s : State) : (classify i l slot d
    s).1.pending = s.pending ∧ (classify i l slot d s).1.out = s.out ∧ (classify i l slot d s).1.game = s.game ∧
    (classify i l slot d s).1.clock = s.clock ∧ (classify i l slot d s).1.handoff = s.handoff ∧ (classify i l slot d
    s).1.image = s.image ∧ (classify i l slot d s).1.gate = s.gate ∧ (classify i l slot d s).1.loader = s.loader ∧
    (classify i l slot d s).1.shadow = s.shadow := by
  unfold classify; dsimp only; (repeat' split) <;> simp

@[simp] theorem enterStall_frame (l : Link) (d : List Word) (s : State) : (enterStall l d s).pending = s.pending ∧
    (enterStall l d s).out = s.out ∧ (enterStall l d s).admission = s.admission ∧ (enterStall l d s).entries =
    s.entries ∧ (enterStall l d s).game = s.game ∧ (enterStall l d s).clock = s.clock ∧ (enterStall l d s).stations
    = s.stations ∧ (enterStall l d s).handoff = s.handoff ∧ (enterStall l d s).image = s.image ∧ (enterStall l d
    s).gate = s.gate ∧ (enterStall l d s).loader = s.loader ∧ (enterStall l d s).shadow = s.shadow := by
  simp [enterStall]

@[simp] theorem endStall_frame (l : Link) (s : State) : (endStall l s).pending = s.pending ∧ (endStall l s).out =
    s.out ∧ (endStall l s).bus = s.bus ∧ (endStall l s).entries = s.entries ∧ (endStall l s).game = s.game ∧
    (endStall l s).clock = s.clock ∧ (endStall l s).stations = s.stations ∧ (endStall l s).handoff = s.handoff ∧
    (endStall l s).image = s.image ∧ (endStall l s).gate = s.gate ∧ (endStall l s).events = s.events ∧ (endStall l
    s).loader = s.loader ∧ (endStall l s).shadow = s.shadow := by
  simp [endStall]

@[simp] theorem spendRelease_frame (s : State) : (spendRelease s).pending = s.pending ∧ (spendRelease s).out = s.out
    ∧ (spendRelease s).bus = s.bus ∧ (spendRelease s).entries = s.entries ∧ (spendRelease s).links = s.links ∧
    (spendRelease s).game = s.game ∧ (spendRelease s).clock = s.clock ∧ (spendRelease s).stations = s.stations ∧
    (spendRelease s).handoff = s.handoff ∧ (spendRelease s).image = s.image ∧ (spendRelease s).gate = s.gate ∧
    (spendRelease s).events = s.events ∧ (spendRelease s).loader = s.loader ∧ (spendRelease s).shadow = s.shadow :=
    by
  simp [spendRelease]

@[simp] theorem dropReleases_frame (s : State) : (dropReleases s).pending = s.pending ∧ (dropReleases s).out = s.out
    ∧ (dropReleases s).bus = s.bus ∧ (dropReleases s).entries = s.entries ∧ (dropReleases s).links = s.links ∧
    (dropReleases s).game = s.game ∧ (dropReleases s).clock = s.clock ∧ (dropReleases s).stations = s.stations ∧
    (dropReleases s).handoff = s.handoff ∧ (dropReleases s).image = s.image ∧ (dropReleases s).gate = s.gate ∧
    (dropReleases s).events = s.events ∧ (dropReleases s).loader = s.loader ∧ (dropReleases s).shadow = s.shadow :=
    by
  simp [dropReleases]

@[simp] theorem serveStalled_frame (l : Link) (i : ℕ) (d : List Word) (s : State) : (serveStalled l i d s).pending =
    s.pending ∧ (serveStalled l i d s).out = s.out ∧ (serveStalled l i d s).game = s.game ∧ (serveStalled l i d
    s).clock = s.clock ∧ (serveStalled l i d s).handoff = s.handoff ∧ (serveStalled l i d s).image = s.image ∧
    (serveStalled l i d s).gate = s.gate ∧ (serveStalled l i d s).loader = s.loader ∧ (serveStalled l i d s).shadow
    = s.shadow := by
  unfold serveStalled; dsimp only; (repeat' split) <;> simp

@[simp] theorem settleReleases_frame (s : State) : (settleReleases s).pending = s.pending ∧ (settleReleases s).out =
    s.out ∧ (settleReleases s).bus = s.bus ∧ (settleReleases s).entries = s.entries ∧ (settleReleases s).links =
    s.links ∧ (settleReleases s).game = s.game ∧ (settleReleases s).clock = s.clock ∧ (settleReleases s).stations =
    s.stations ∧ (settleReleases s).handoff = s.handoff ∧ (settleReleases s).image = s.image ∧ (settleReleases
    s).gate = s.gate ∧ (settleReleases s).events = s.events ∧ (settleReleases s).loader = s.loader ∧ (settleReleases
    s).shadow = s.shadow := by
  unfold settleReleases; (repeat' split) <;> simp

@[simp] theorem serveStallDue_frame (s : State) : (serveStallDue s).pending = s.pending ∧ (serveStallDue s).out =
    s.out ∧ (serveStallDue s).game = s.game ∧ (serveStallDue s).clock = s.clock ∧ (serveStallDue s).handoff =
    s.handoff ∧ (serveStallDue s).image = s.image ∧ (serveStallDue s).gate = s.gate ∧ (serveStallDue s).loader =
    s.loader ∧ (serveStallDue s).shadow = s.shadow := by
  unfold serveStallDue; (repeat' split) <;> simp

@[simp] theorem serveNext_frame (s : State) : (serveNext s).pending = s.pending ∧ (serveNext s).out = s.out ∧
    (serveNext s).game = s.game ∧ (serveNext s).clock = s.clock ∧ (serveNext s).image = s.image ∧ (serveNext s).gate
    = s.gate ∧ (serveNext s).loader = s.loader ∧ (serveNext s).shadow = s.shadow := by
  unfold serveNext; (repeat' split) <;> simp

@[simp] theorem serveUpTo_frame (n : ℕ) (s : State) : (serveUpTo n s).pending = s.pending ∧ (serveUpTo n s).out =
    s.out ∧ (serveUpTo n s).game = s.game ∧ (serveUpTo n s).clock = s.clock ∧ (serveUpTo n s).image = s.image ∧
    (serveUpTo n s).gate = s.gate ∧ (serveUpTo n s).loader = s.loader ∧ (serveUpTo n s).shadow = s.shadow := by
  induction n generalizing s with
  | zero => simp [serveUpTo]
  | succ n ih => unfold serveUpTo; split <;> simp [ih]

@[simp] theorem settle_frame (s : State) : (settle s).pending = s.pending ∧ (settle s).out = s.out ∧ (settle s).game
    = s.game ∧ (settle s).clock = s.clock ∧ (settle s).image = s.image ∧ (settle s).gate = s.gate ∧ (settle
    s).loader = s.loader ∧ (settle s).shadow = s.shadow := by
  simp [settle]

@[simp] theorem start_frame (s : State) : (start s).pending = s.pending ∧ (start s).game = s.game ∧ (start s).clock
    = s.clock ∧ (start s).image = s.image ∧ (start s).gate = s.gate ∧ (start s).loader = s.loader ∧ (start s).shadow
    = s.shadow := by
  simp [start]

/-- The outputs of the last command are gone when a command is taken. -/
@[simp] theorem start_out (s : State) : (start s).out = [] := by
  simp [start]

/-! ### Machine/Egress.lean -/

@[simp] theorem issueDeviceStatus_frame (thenNone : Bool) (s : State) : (issueDeviceStatus thenNone s).pending =
    s.pending ∧ (issueDeviceStatus thenNone s).out = s.out ∧ (issueDeviceStatus thenNone s).admission = s.admission
    ∧ (issueDeviceStatus thenNone s).entries = s.entries ∧ (issueDeviceStatus thenNone s).links = s.links ∧
    (issueDeviceStatus thenNone s).game = s.game ∧ (issueDeviceStatus thenNone s).clock = s.clock ∧
    (issueDeviceStatus thenNone s).stations = s.stations ∧ (issueDeviceStatus thenNone s).handoff = s.handoff ∧
    (issueDeviceStatus thenNone s).image = s.image ∧ (issueDeviceStatus thenNone s).gate = s.gate ∧
    (issueDeviceStatus thenNone s).events = s.events ∧ (issueDeviceStatus thenNone s).loader = s.loader ∧
    (issueDeviceStatus thenNone s).shadow = s.shadow := by
  simp [issueDeviceStatus]

@[simp] theorem clearAirtime_frame (l : Link) (s : State) : (clearAirtime l s).pending = s.pending ∧ (clearAirtime l
    s).out = s.out ∧ (clearAirtime l s).bus = s.bus ∧ (clearAirtime l s).admission = s.admission ∧ (clearAirtime l
    s).entries = s.entries ∧ (clearAirtime l s).game = s.game ∧ (clearAirtime l s).clock = s.clock ∧ (clearAirtime l
    s).stations = s.stations ∧ (clearAirtime l s).handoff = s.handoff ∧ (clearAirtime l s).image = s.image ∧
    (clearAirtime l s).gate = s.gate ∧ (clearAirtime l s).events = s.events ∧ (clearAirtime l s).loader = s.loader ∧
    (clearAirtime l s).shadow = s.shadow := by
  simp [clearAirtime]

@[simp] theorem endStop_frame (byTimeout : Bool) (s : State) : (endStop byTimeout s).pending = s.pending ∧ (endStop
    byTimeout s).out = s.out ∧ (endStop byTimeout s).admission = s.admission ∧ (endStop byTimeout s).entries =
    s.entries ∧ (endStop byTimeout s).game = s.game ∧ (endStop byTimeout s).clock = s.clock ∧ (endStop byTimeout
    s).stations = s.stations ∧ (endStop byTimeout s).handoff = s.handoff ∧ (endStop byTimeout s).image = s.image ∧
    (endStop byTimeout s).gate = s.gate ∧ (endStop byTimeout s).shadow = s.shadow := by
  simp [endStop]

@[simp] theorem testStopEnd_frame (s : State) : (testStopEnd s).pending = s.pending ∧ (testStopEnd s).out = s.out ∧
    (testStopEnd s).admission = s.admission ∧ (testStopEnd s).entries = s.entries ∧ (testStopEnd s).game = s.game ∧
    (testStopEnd s).clock = s.clock ∧ (testStopEnd s).stations = s.stations ∧ (testStopEnd s).handoff = s.handoff ∧
    (testStopEnd s).image = s.image ∧ (testStopEnd s).gate = s.gate ∧ (testStopEnd s).shadow = s.shadow := by
  unfold testStopEnd; (repeat' split) <;> simp

@[simp] theorem setProgress_frame (id : ℕ) (p : ReadProgress) (s : State) : (setProgress id p s).pending = s.pending
    ∧ (setProgress id p s).out = s.out ∧ (setProgress id p s).admission = s.admission ∧ (setProgress id p s).entries
    = s.entries ∧ (setProgress id p s).links = s.links ∧ (setProgress id p s).game = s.game ∧ (setProgress id p
    s).clock = s.clock ∧ (setProgress id p s).stations = s.stations ∧ (setProgress id p s).handoff = s.handoff ∧
    (setProgress id p s).image = s.image ∧ (setProgress id p s).gate = s.gate ∧ (setProgress id p s).events =
    s.events ∧ (setProgress id p s).loader = s.loader ∧ (setProgress id p s).shadow = s.shadow := by
  simp [setProgress]

@[simp] theorem returnReady_frame (s : State) : (returnReady s).pending = s.pending ∧ (returnReady s).admission =
    s.admission ∧ (returnReady s).entries = s.entries ∧ (returnReady s).links = s.links ∧ (returnReady s).game =
    s.game ∧ (returnReady s).clock = s.clock ∧ (returnReady s).stations = s.stations ∧ (returnReady s).handoff =
    s.handoff ∧ (returnReady s).image = s.image ∧ (returnReady s).gate = s.gate ∧ (returnReady s).events = s.events
    ∧ (returnReady s).loader = s.loader ∧ (returnReady s).shadow = s.shadow := by
  simp [returnReady]

@[simp] theorem completeRead_frame (id : ℕ) (beats : List Beat) (s : State) : (completeRead id beats s).pending =
    s.pending ∧ (completeRead id beats s).admission = s.admission ∧ (completeRead id beats s).entries = s.entries ∧
    (completeRead id beats s).links = s.links ∧ (completeRead id beats s).game = s.game ∧ (completeRead id beats
    s).clock = s.clock ∧ (completeRead id beats s).stations = s.stations ∧ (completeRead id beats s).handoff =
    s.handoff ∧ (completeRead id beats s).image = s.image ∧ (completeRead id beats s).gate = s.gate ∧ (completeRead
    id beats s).events = s.events ∧ (completeRead id beats s).loader = s.loader ∧ (completeRead id beats s).shadow =
    s.shadow := by
  simp [completeRead]

@[simp] theorem answerRead_frame (id : ℕ) (ws : List Word) (s : State) : (answerRead id ws s).pending = s.pending ∧
    (answerRead id ws s).admission = s.admission ∧ (answerRead id ws s).entries = s.entries ∧ (answerRead id ws
    s).links = s.links ∧ (answerRead id ws s).game = s.game ∧ (answerRead id ws s).clock = s.clock ∧ (answerRead id
    ws s).stations = s.stations ∧ (answerRead id ws s).handoff = s.handoff ∧ (answerRead id ws s).image = s.image ∧
    (answerRead id ws s).gate = s.gate ∧ (answerRead id ws s).events = s.events ∧ (answerRead id ws s).loader =
    s.loader ∧ (answerRead id ws s).shadow = s.shadow := by
  simp [answerRead]

@[simp] theorem forwardRead_frame (r : ReadEntry) (s : State) : (forwardRead r s).pending = s.pending ∧ (forwardRead
    r s).out = s.out ∧ (forwardRead r s).admission = s.admission ∧ (forwardRead r s).entries = s.entries ∧
    (forwardRead r s).links = s.links ∧ (forwardRead r s).game = s.game ∧ (forwardRead r s).clock = s.clock ∧
    (forwardRead r s).stations = s.stations ∧ (forwardRead r s).handoff = s.handoff ∧ (forwardRead r s).image =
    s.image ∧ (forwardRead r s).gate = s.gate ∧ (forwardRead r s).events = s.events ∧ (forwardRead r s).loader =
    s.loader ∧ (forwardRead r s).shadow = s.shadow := by
  simp [forwardRead]

@[simp] theorem leaveInFlight_frame (l : Link) (slot : ℕ) (s : State) : (leaveInFlight l slot s).pending = s.pending
    ∧ (leaveInFlight l slot s).out = s.out ∧ (leaveInFlight l slot s).bus = s.bus ∧ (leaveInFlight l slot
    s).admission = s.admission ∧ (leaveInFlight l slot s).entries = s.entries ∧ (leaveInFlight l slot s).game =
    s.game ∧ (leaveInFlight l slot s).clock = s.clock ∧ (leaveInFlight l slot s).stations = s.stations ∧
    (leaveInFlight l slot s).handoff = s.handoff ∧ (leaveInFlight l slot s).image = s.image ∧ (leaveInFlight l slot
    s).gate = s.gate ∧ (leaveInFlight l slot s).events = s.events ∧ (leaveInFlight l slot s).loader = s.loader ∧
    (leaveInFlight l slot s).shadow = s.shadow := by
  simp [leaveInFlight]

@[simp] theorem giveAnswer_frame (l : Link) (a : Answering) (copy : List Word) (s : State) : (giveAnswer l a copy
    s).pending = s.pending ∧ (giveAnswer l a copy s).admission = s.admission ∧ (giveAnswer l a copy s).entries =
    s.entries ∧ (giveAnswer l a copy s).game = s.game ∧ (giveAnswer l a copy s).clock = s.clock ∧ (giveAnswer l a
    copy s).stations = s.stations ∧ (giveAnswer l a copy s).handoff = s.handoff ∧ (giveAnswer l a copy s).image =
    s.image ∧ (giveAnswer l a copy s).gate = s.gate ∧ (giveAnswer l a copy s).events = s.events ∧ (giveAnswer l a
    copy s).loader = s.loader ∧ (giveAnswer l a copy s).shadow = s.shadow := by
  simp [giveAnswer]

@[simp] theorem gameChosen_frame (s : State) : (gameChosen s).pending = s.pending ∧ (gameChosen s).out = s.out ∧
    (gameChosen s).admission = s.admission ∧ (gameChosen s).entries = s.entries ∧ (gameChosen s).links = s.links ∧
    (gameChosen s).clock = s.clock ∧ (gameChosen s).stations = s.stations ∧ (gameChosen s).handoff = s.handoff ∧
    (gameChosen s).image = s.image ∧ (gameChosen s).loader = s.loader ∧ (gameChosen s).shadow = s.shadow := by
  unfold gameChosen; dsimp only; (repeat' split) <;> simp

@[simp] theorem expireQuiet_frame (s : State) : (expireQuiet s).pending = s.pending ∧ (expireQuiet s).out = s.out ∧
    (expireQuiet s).admission = s.admission ∧ (expireQuiet s).entries = s.entries ∧ (expireQuiet s).links = s.links
    ∧ (expireQuiet s).clock = s.clock ∧ (expireQuiet s).stations = s.stations ∧ (expireQuiet s).handoff = s.handoff
    ∧ (expireQuiet s).image = s.image ∧ (expireQuiet s).loader = s.loader ∧ (expireQuiet s).shadow = s.shadow := by
  unfold expireQuiet; (repeat' split) <;> simp

@[simp] theorem divertHead_frame (st : StationId) (i : ℕ) (s : State) : (divertHead st i s).pending = s.pending ∧
    (divertHead st i s).out = s.out ∧ (divertHead st i s).links = s.links ∧ (divertHead st i s).game = s.game ∧
    (divertHead st i s).clock = s.clock ∧ (divertHead st i s).image = s.image ∧ (divertHead st i s).gate = s.gate ∧
    (divertHead st i s).loader = s.loader ∧ (divertHead st i s).shadow = s.shadow := by
  unfold divertHead; (repeat' split) <;> simp

@[simp] theorem cleanHead_frame (l : Link) (c : Cls) (n : ℕ) (s : State) : (cleanHead l c n s).pending = s.pending ∧
    (cleanHead l c n s).out = s.out ∧ (cleanHead l c n s).game = s.game ∧ (cleanHead l c n s).clock = s.clock ∧
    (cleanHead l c n s).image = s.image ∧ (cleanHead l c n s).gate = s.gate ∧ (cleanHead l c n s).loader = s.loader
    ∧ (cleanHead l c n s).shadow = s.shadow := by
  induction n generalizing s with
  | zero => simp [cleanHead]
  | succ n ih => unfold cleanHead; (repeat' split) <;> simp [ih]

@[simp] theorem cleanHeads_frame (l : Link) (s : State) : (cleanHeads l s).pending = s.pending ∧ (cleanHeads l
    s).out = s.out ∧ (cleanHeads l s).game = s.game ∧ (cleanHeads l s).clock = s.clock ∧ (cleanHeads l s).image =
    s.image ∧ (cleanHeads l s).gate = s.gate ∧ (cleanHeads l s).loader = s.loader ∧ (cleanHeads l s).shadow =
    s.shadow := by
  simp [cleanHeads]

@[simp] theorem answerEmpty_frame (r : EgressRead) (s : State) : (answerEmpty r s).pending = s.pending ∧
    (answerEmpty r s).admission = s.admission ∧ (answerEmpty r s).entries = s.entries ∧ (answerEmpty r s).links =
    s.links ∧ (answerEmpty r s).game = s.game ∧ (answerEmpty r s).clock = s.clock ∧ (answerEmpty r s).stations =
    s.stations ∧ (answerEmpty r s).handoff = s.handoff ∧ (answerEmpty r s).image = s.image ∧ (answerEmpty r s).gate
    = s.gate ∧ (answerEmpty r s).events = s.events ∧ (answerEmpty r s).loader = s.loader ∧ (answerEmpty r s).shadow
    = s.shadow := by
  simp [answerEmpty]

@[simp] theorem putInFlight_frame (l : Link) (c : Cls) (slot : ℕ) (i : ℕ) (s : State) : (putInFlight l c slot i
    s).pending = s.pending ∧ (putInFlight l c slot i s).out = s.out ∧ (putInFlight l c slot i s).admission =
    s.admission ∧ (putInFlight l c slot i s).game = s.game ∧ (putInFlight l c slot i s).clock = s.clock ∧
    (putInFlight l c slot i s).stations = s.stations ∧ (putInFlight l c slot i s).handoff = s.handoff ∧ (putInFlight
    l c slot i s).image = s.image ∧ (putInFlight l c slot i s).gate = s.gate ∧ (putInFlight l c slot i s).loader =
    s.loader ∧ (putInFlight l c slot i s).shadow = s.shadow := by
  simp [putInFlight]

@[simp] theorem markChosen_frame (i : ℕ) (s : State) : (markChosen i s).pending = s.pending ∧ (markChosen i s).out =
    s.out ∧ (markChosen i s).bus = s.bus ∧ (markChosen i s).admission = s.admission ∧ (markChosen i s).entries =
    s.entries ∧ (markChosen i s).links = s.links ∧ (markChosen i s).game = s.game ∧ (markChosen i s).clock = s.clock
    ∧ (markChosen i s).handoff = s.handoff ∧ (markChosen i s).image = s.image ∧ (markChosen i s).gate = s.gate ∧
    (markChosen i s).events = s.events ∧ (markChosen i s).loader = s.loader ∧ (markChosen i s).shadow = s.shadow :=
    by
  unfold markChosen; (repeat' split) <;> simp

@[simp] theorem beginAnswer_frame (l : Link) (r : EgressRead) (i : ℕ) (s : State) : (beginAnswer l r i s).pending =
    s.pending ∧ (beginAnswer l r i s).admission = s.admission ∧ (beginAnswer l r i s).entries = s.entries ∧
    (beginAnswer l r i s).game = s.game ∧ (beginAnswer l r i s).clock = s.clock ∧ (beginAnswer l r i s).stations =
    s.stations ∧ (beginAnswer l r i s).handoff = s.handoff ∧ (beginAnswer l r i s).image = s.image ∧ (beginAnswer l
    r i s).gate = s.gate ∧ (beginAnswer l r i s).events = s.events ∧ (beginAnswer l r i s).loader = s.loader ∧
    (beginAnswer l r i s).shadow = s.shadow := by
  unfold beginAnswer; dsimp only; (repeat' split) <;> simp

@[simp] theorem chooseHead_frame (l : Link) (r : EgressRead) (c : Cls) (s : State) : (chooseHead l r c s).pending =
    s.pending ∧ (chooseHead l r c s).admission = s.admission ∧ (chooseHead l r c s).clock = s.clock ∧ (chooseHead l
    r c s).handoff = s.handoff ∧ (chooseHead l r c s).image = s.image ∧ (chooseHead l r c s).loader = s.loader ∧
    (chooseHead l r c s).shadow = s.shadow := by
  unfold chooseHead; dsimp only; (repeat' split) <;> simp

@[simp] theorem choose_frame (l : Link) (r : EgressRead) (s : State) : (choose l r s).pending = s.pending ∧ (choose
    l r s).admission = s.admission ∧ (choose l r s).clock = s.clock ∧ (choose l r s).handoff = s.handoff ∧ (choose l
    r s).image = s.image ∧ (choose l r s).loader = s.loader ∧ (choose l r s).shadow = s.shadow := by
  unfold choose; (repeat' split) <;> simp

@[simp] theorem pull_frame (l : Link) (r : EgressRead) (s : State) : (pull l r s).pending = s.pending ∧ (pull l r
    s).clock = s.clock ∧ (pull l r s).image = s.image ∧ (pull l r s).loader = s.loader ∧ (pull l r s).shadow =
    s.shadow := by
  simp [pull]

@[simp] theorem takeActive_frame (l : Link) (r : EgressRead) (s : State) : (takeActive l r s).pending = s.pending ∧
    (takeActive l r s).clock = s.clock ∧ (takeActive l r s).image = s.image ∧ (takeActive l r s).loader = s.loader ∧
    (takeActive l r s).shadow = s.shadow := by
  unfold takeActive; (repeat' split) <;> simp

@[simp] theorem takeStopping_frame (l : Link) (r : EgressRead) (s : State) : (takeStopping l r s).pending =
    s.pending ∧ (takeStopping l r s).admission = s.admission ∧ (takeStopping l r s).entries = s.entries ∧
    (takeStopping l r s).links = s.links ∧ (takeStopping l r s).game = s.game ∧ (takeStopping l r s).clock = s.clock
    ∧ (takeStopping l r s).stations = s.stations ∧ (takeStopping l r s).handoff = s.handoff ∧ (takeStopping l r
    s).image = s.image ∧ (takeStopping l r s).gate = s.gate ∧ (takeStopping l r s).events = s.events ∧ (takeStopping
    l r s).loader = s.loader ∧ (takeStopping l r s).shadow = s.shadow := by
  unfold takeStopping; (repeat' split) <;> simp

@[simp] theorem takeEgress_frame (l : Link) (e : ReadEntry) (r : EgressRead) (s : State) : (takeEgress l e r
    s).pending = s.pending ∧ (takeEgress l e r s).clock = s.clock ∧ (takeEgress l e r s).image = s.image ∧
    (takeEgress l e r s).loader = s.loader ∧ (takeEgress l e r s).shadow = s.shadow := by
  unfold takeEgress; (repeat' split) <;> simp

@[simp] theorem takeNext_frame (l : Link) (s : State) : (takeNext l s).pending = s.pending ∧ (takeNext l s).clock =
    s.clock ∧ (takeNext l s).image = s.image ∧ (takeNext l s).loader = s.loader ∧ (takeNext l s).shadow = s.shadow
    := by
  unfold takeNext; (repeat' split) <;> simp

@[simp] theorem raiseAnswerError_frame (l : Link) (a : Answering) (s : State) : (raiseAnswerError l a s).pending =
    s.pending ∧ (raiseAnswerError l a s).out = s.out ∧ (raiseAnswerError l a s).admission = s.admission ∧
    (raiseAnswerError l a s).entries = s.entries ∧ (raiseAnswerError l a s).links = s.links ∧ (raiseAnswerError l a
    s).game = s.game ∧ (raiseAnswerError l a s).clock = s.clock ∧ (raiseAnswerError l a s).stations = s.stations ∧
    (raiseAnswerError l a s).handoff = s.handoff ∧ (raiseAnswerError l a s).image = s.image ∧ (raiseAnswerError l a
    s).gate = s.gate ∧ (raiseAnswerError l a s).loader = s.loader ∧ (raiseAnswerError l a s).shadow = s.shadow := by
  unfold raiseAnswerError; (repeat' split) <;> simp

@[simp] theorem failAnswer_frame (l : Link) (a : Answering) (s : State) : (failAnswer l a s).pending = s.pending ∧
    (failAnswer l a s).game = s.game ∧ (failAnswer l a s).clock = s.clock ∧ (failAnswer l a s).image = s.image ∧
    (failAnswer l a s).gate = s.gate ∧ (failAnswer l a s).shadow = s.shadow := by
  simp [failAnswer]

@[simp] theorem returnAnswer_frame (l : Link) (beats : List Beat) (s : State) : (returnAnswer l beats s).pending =
    s.pending ∧ (returnAnswer l beats s).game = s.game ∧ (returnAnswer l beats s).clock = s.clock ∧ (returnAnswer l
    beats s).image = s.image ∧ (returnAnswer l beats s).gate = s.gate ∧ (returnAnswer l beats s).shadow = s.shadow
    := by
  unfold returnAnswer; (repeat' split) <;> simp

@[simp] theorem completeFrame_frame (l : Link) (slot : ℕ) (i : ℕ) (retries : ℕ) (failed : Bool) (s : State) :
    (completeFrame l slot i retries failed s).pending = s.pending ∧ (completeFrame l slot i retries failed s).out =
    s.out ∧ (completeFrame l slot i retries failed s).game = s.game ∧ (completeFrame l slot i retries failed
    s).clock = s.clock ∧ (completeFrame l slot i retries failed s).image = s.image ∧ (completeFrame l slot i retries
    failed s).gate = s.gate ∧ (completeFrame l slot i retries failed s).events = s.events ∧ (completeFrame l slot i
    retries failed s).loader = s.loader ∧ (completeFrame l slot i retries failed s).shadow = s.shadow := by
  unfold completeFrame; dsimp only; (repeat' split) <;> simp

@[simp] theorem finishMarker_frame (st : StationId) (i : ℕ) (lost : Bool) (s : State) : (finishMarker st i lost
    s).pending = s.pending ∧ (finishMarker st i lost s).out = s.out ∧ (finishMarker st i lost s).links = s.links ∧
    (finishMarker st i lost s).game = s.game ∧ (finishMarker st i lost s).clock = s.clock ∧ (finishMarker st i lost
    s).image = s.image ∧ (finishMarker st i lost s).loader = s.loader ∧ (finishMarker st i lost s).shadow = s.shadow
    := by
  unfold finishMarker; dsimp only; (repeat' split) <;> simp

@[simp] theorem countSend_frame (st : StationId) (s : State) : (countSend st s).pending = s.pending ∧ (countSend st
    s).out = s.out ∧ (countSend st s).bus = s.bus ∧ (countSend st s).admission = s.admission ∧ (countSend st
    s).entries = s.entries ∧ (countSend st s).links = s.links ∧ (countSend st s).game = s.game ∧ (countSend st
    s).clock = s.clock ∧ (countSend st s).handoff = s.handoff ∧ (countSend st s).image = s.image ∧ (countSend st
    s).gate = s.gate ∧ (countSend st s).events = s.events ∧ (countSend st s).loader = s.loader ∧ (countSend st
    s).shadow = s.shadow := by
  simp [countSend]

@[simp] theorem judgeMarker_frame (st : StationId) (i : ℕ) (failed : Bool) (s : State) : (judgeMarker st i failed
    s).pending = s.pending ∧ (judgeMarker st i failed s).out = s.out ∧ (judgeMarker st i failed s).game = s.game ∧
    (judgeMarker st i failed s).clock = s.clock ∧ (judgeMarker st i failed s).image = s.image ∧ (judgeMarker st i
    failed s).loader = s.loader ∧ (judgeMarker st i failed s).shadow = s.shadow := by
  unfold judgeMarker; dsimp only; (repeat' split) <;> simp

@[simp] theorem completeMarker_frame (l : Link) (slot : ℕ) (i : ℕ) (retries : ℕ) (failed : Bool) (s : State) :
    (completeMarker l slot i retries failed s).pending = s.pending ∧ (completeMarker l slot i retries failed s).out
    = s.out ∧ (completeMarker l slot i retries failed s).game = s.game ∧ (completeMarker l slot i retries failed
    s).clock = s.clock ∧ (completeMarker l slot i retries failed s).image = s.image ∧ (completeMarker l slot i
    retries failed s).loader = s.loader ∧ (completeMarker l slot i retries failed s).shadow = s.shadow := by
  unfold completeMarker; dsimp only; (repeat' split) <;> simp

@[simp] theorem complete_frame (l : Link) (f : InFlight) (w : Word) (s : State) : (complete l f w s).pending =
    s.pending ∧ (complete l f w s).out = s.out ∧ (complete l f w s).game = s.game ∧ (complete l f w s).clock =
    s.clock ∧ (complete l f w s).image = s.image ∧ (complete l f w s).shadow = s.shadow := by
  unfold complete; dsimp only; (repeat' split) <;> simp

@[simp] theorem egressControl_frame (l : Link) (slot : ℕ) (w : Word) (m : Lanes) (s : State) : (egressControl l slot
    w m s).pending = s.pending ∧ (egressControl l slot w m s).out = s.out ∧ (egressControl l slot w m s).game =
    s.game ∧ (egressControl l slot w m s).clock = s.clock ∧ (egressControl l slot w m s).image = s.image ∧
    (egressControl l slot w m s).shadow = s.shadow := by
  unfold egressControl; (repeat' split) <;> simp

end Sys2Proof.Machine
end

