-- ==== Sys2Proof/Laws/FrameTables.lean ====
section
/-! SUPPORT. Frames: the parts of the state that each operation leaves as they were, for the schedule evaluator, the station table and the image tracker. -/

namespace Sys2Proof.Machine

open Sys2Proof

/-! ### Machine/Schedules.lean -/

@[simp] theorem takeAccess_frame (st : StationId) (s : State) : (takeAccess st s).pending = s.pending ∧ (takeAccess
    st s).out = s.out ∧ (takeAccess st s).bus = s.bus ∧ (takeAccess st s).admission = s.admission ∧ (takeAccess st
    s).entries = s.entries ∧ (takeAccess st s).links = s.links ∧ (takeAccess st s).game = s.game ∧ (takeAccess st
    s).clock = s.clock ∧ (takeAccess st s).handoff = s.handoff ∧ (takeAccess st s).image = s.image ∧ (takeAccess st
    s).gate = s.gate ∧ (takeAccess st s).events = s.events ∧ (takeAccess st s).loader = s.loader ∧ (takeAccess st
    s).shadow = s.shadow := by
  simp [takeAccess]

@[simp] theorem raiseAccess_frame (st : StationId) (old : Option AccessState) (s : State) : (raiseAccess st old
    s).pending = s.pending ∧ (raiseAccess st old s).out = s.out ∧ (raiseAccess st old s).admission = s.admission ∧
    (raiseAccess st old s).entries = s.entries ∧ (raiseAccess st old s).links = s.links ∧ (raiseAccess st old
    s).game = s.game ∧ (raiseAccess st old s).clock = s.clock ∧ (raiseAccess st old s).stations = s.stations ∧
    (raiseAccess st old s).handoff = s.handoff ∧ (raiseAccess st old s).image = s.image ∧ (raiseAccess st old
    s).gate = s.gate ∧ (raiseAccess st old s).loader = s.loader ∧ (raiseAccess st old s).shadow = s.shadow := by
  unfold raiseAccess; (repeat' split) <;> simp

@[simp] theorem evaluateAccess_frame (st : StationId) (s : State) : (evaluateAccess st s).pending = s.pending ∧
    (evaluateAccess st s).out = s.out ∧ (evaluateAccess st s).admission = s.admission ∧ (evaluateAccess st
    s).entries = s.entries ∧ (evaluateAccess st s).links = s.links ∧ (evaluateAccess st s).game = s.game ∧
    (evaluateAccess st s).clock = s.clock ∧ (evaluateAccess st s).handoff = s.handoff ∧ (evaluateAccess st s).image
    = s.image ∧ (evaluateAccess st s).gate = s.gate ∧ (evaluateAccess st s).loader = s.loader ∧ (evaluateAccess st
    s).shadow = s.shadow := by
  simp [evaluateAccess]

@[simp] theorem chargeBonus_frame (st : StationId) (s : State) : (chargeBonus st s).pending = s.pending ∧
    (chargeBonus st s).out = s.out ∧ (chargeBonus st s).admission = s.admission ∧ (chargeBonus st s).entries =
    s.entries ∧ (chargeBonus st s).links = s.links ∧ (chargeBonus st s).game = s.game ∧ (chargeBonus st s).clock =
    s.clock ∧ (chargeBonus st s).handoff = s.handoff ∧ (chargeBonus st s).image = s.image ∧ (chargeBonus st s).gate
    = s.gate ∧ (chargeBonus st s).loader = s.loader ∧ (chargeBonus st s).shadow = s.shadow := by
  unfold chargeBonus; dsimp only; (repeat' split) <;> simp

@[simp] theorem clearMark_frame (st : StationId) (s : State) : (clearMark st s).pending = s.pending ∧ (clearMark st
    s).out = s.out ∧ (clearMark st s).bus = s.bus ∧ (clearMark st s).admission = s.admission ∧ (clearMark st
    s).entries = s.entries ∧ (clearMark st s).links = s.links ∧ (clearMark st s).game = s.game ∧ (clearMark st
    s).clock = s.clock ∧ (clearMark st s).handoff = s.handoff ∧ (clearMark st s).image = s.image ∧ (clearMark st
    s).gate = s.gate ∧ (clearMark st s).events = s.events ∧ (clearMark st s).loader = s.loader ∧ (clearMark st
    s).shadow = s.shadow := by
  simp [clearMark]

@[simp] theorem boundaryStation_frame (st : StationId) (s : State) : (boundaryStation st s).pending = s.pending ∧
    (boundaryStation st s).out = s.out ∧ (boundaryStation st s).admission = s.admission ∧ (boundaryStation st
    s).entries = s.entries ∧ (boundaryStation st s).links = s.links ∧ (boundaryStation st s).game = s.game ∧
    (boundaryStation st s).clock = s.clock ∧ (boundaryStation st s).handoff = s.handoff ∧ (boundaryStation st
    s).image = s.image ∧ (boundaryStation st s).gate = s.gate ∧ (boundaryStation st s).loader = s.loader ∧
    (boundaryStation st s).shadow = s.shadow := by
  unfold boundaryStation; (repeat' split) <;> simp

@[simp] theorem atBoundary_frame (s : State) : (atBoundary s).pending = s.pending ∧ (atBoundary s).out = s.out ∧
    (atBoundary s).admission = s.admission ∧ (atBoundary s).entries = s.entries ∧ (atBoundary s).links = s.links ∧
    (atBoundary s).game = s.game ∧ (atBoundary s).clock = s.clock ∧ (atBoundary s).handoff = s.handoff ∧ (atBoundary
    s).image = s.image ∧ (atBoundary s).loader = s.loader ∧ (atBoundary s).shadow = s.shadow := by
  unfold atBoundary; (repeat' split) <;> simp

@[simp] theorem passBoundary_frame (s : State) : (passBoundary s).pending = s.pending ∧ (passBoundary s).out = s.out
    ∧ (passBoundary s).bus = s.bus ∧ (passBoundary s).admission = s.admission ∧ (passBoundary s).entries = s.entries
    ∧ (passBoundary s).links = s.links ∧ (passBoundary s).game = s.game ∧ (passBoundary s).stations = s.stations ∧
    (passBoundary s).handoff = s.handoff ∧ (passBoundary s).image = s.image ∧ (passBoundary s).gate = s.gate ∧
    (passBoundary s).events = s.events ∧ (passBoundary s).loader = s.loader ∧ (passBoundary s).shadow = s.shadow :=
    by
  simp [passBoundary]

@[simp] theorem minuteBoundary_frame (s : State) : (minuteBoundary s).pending = s.pending ∧ (minuteBoundary s).out =
    s.out ∧ (minuteBoundary s).admission = s.admission ∧ (minuteBoundary s).entries = s.entries ∧ (minuteBoundary
    s).links = s.links ∧ (minuteBoundary s).game = s.game ∧ (minuteBoundary s).handoff = s.handoff ∧ (minuteBoundary
    s).image = s.image ∧ (minuteBoundary s).loader = s.loader ∧ (minuteBoundary s).shadow = s.shadow := by
  unfold minuteBoundary; (repeat' split) <;> simp

@[simp] theorem setClock_frame (w : Word) (s : State) : (setClock w s).pending = s.pending ∧ (setClock w s).out =
    s.out ∧ (setClock w s).bus = s.bus ∧ (setClock w s).admission = s.admission ∧ (setClock w s).entries = s.entries
    ∧ (setClock w s).links = s.links ∧ (setClock w s).game = s.game ∧ (setClock w s).stations = s.stations ∧
    (setClock w s).handoff = s.handoff ∧ (setClock w s).image = s.image ∧ (setClock w s).gate = s.gate ∧ (setClock w
    s).events = s.events ∧ (setClock w s).loader = s.loader ∧ (setClock w s).shadow = s.shadow := by
  simp [setClock]

@[simp] theorem clockSetStation_frame (st : StationId) (s : State) : (clockSetStation st s).pending = s.pending ∧
    (clockSetStation st s).out = s.out ∧ (clockSetStation st s).admission = s.admission ∧ (clockSetStation st
    s).entries = s.entries ∧ (clockSetStation st s).links = s.links ∧ (clockSetStation st s).game = s.game ∧
    (clockSetStation st s).clock = s.clock ∧ (clockSetStation st s).handoff = s.handoff ∧ (clockSetStation st
    s).image = s.image ∧ (clockSetStation st s).gate = s.gate ∧ (clockSetStation st s).loader = s.loader ∧
    (clockSetStation st s).shadow = s.shadow := by
  unfold clockSetStation; dsimp only; (repeat' split) <;> simp

@[simp] theorem takeClockSet_frame (w : Word) (s : State) : (takeClockSet w s).pending = s.pending ∧ (takeClockSet w
    s).out = s.out ∧ (takeClockSet w s).admission = s.admission ∧ (takeClockSet w s).entries = s.entries ∧
    (takeClockSet w s).links = s.links ∧ (takeClockSet w s).game = s.game ∧ (takeClockSet w s).handoff = s.handoff ∧
    (takeClockSet w s).image = s.image ∧ (takeClockSet w s).loader = s.loader ∧ (takeClockSet w s).shadow = s.shadow
    := by
  unfold takeClockSet; dsimp only; (repeat' split) <;> simp

@[simp] theorem advanceClock_frame (s : State) : (advanceClock s).pending = s.pending ∧ (advanceClock s).out = s.out
    ∧ (advanceClock s).bus = s.bus ∧ (advanceClock s).admission = s.admission ∧ (advanceClock s).entries = s.entries
    ∧ (advanceClock s).links = s.links ∧ (advanceClock s).game = s.game ∧ (advanceClock s).stations = s.stations ∧
    (advanceClock s).handoff = s.handoff ∧ (advanceClock s).image = s.image ∧ (advanceClock s).gate = s.gate ∧
    (advanceClock s).events = s.events ∧ (advanceClock s).loader = s.loader ∧ (advanceClock s).shadow = s.shadow :=
    by
  simp [advanceClock]

/-! ### Machine/Stations.lean -/

@[simp] theorem takeSample_frame (l : Link) (st : StationId) (rssi : ℤ) (s : State) : (takeSample l st rssi
    s).pending = s.pending ∧ (takeSample l st rssi s).out = s.out ∧ (takeSample l st rssi s).admission = s.admission
    ∧ (takeSample l st rssi s).entries = s.entries ∧ (takeSample l st rssi s).links = s.links ∧ (takeSample l st
    rssi s).game = s.game ∧ (takeSample l st rssi s).clock = s.clock ∧ (takeSample l st rssi s).handoff = s.handoff
    ∧ (takeSample l st rssi s).image = s.image ∧ (takeSample l st rssi s).gate = s.gate ∧ (takeSample l st rssi
    s).loader = s.loader ∧ (takeSample l st rssi s).shadow = s.shadow := by
  unfold takeSample; dsimp only; (repeat' split) <;> simp

@[simp] theorem sampleReceive_frame (l : Link) (w : Word) (m : Lanes) (s : State) : (sampleReceive l w m s).pending
    = s.pending ∧ (sampleReceive l w m s).out = s.out ∧ (sampleReceive l w m s).admission = s.admission ∧
    (sampleReceive l w m s).entries = s.entries ∧ (sampleReceive l w m s).links = s.links ∧ (sampleReceive l w m
    s).game = s.game ∧ (sampleReceive l w m s).clock = s.clock ∧ (sampleReceive l w m s).handoff = s.handoff ∧
    (sampleReceive l w m s).image = s.image ∧ (sampleReceive l w m s).gate = s.gate ∧ (sampleReceive l w m s).loader
    = s.loader ∧ (sampleReceive l w m s).shadow = s.shadow := by
  unfold sampleReceive; (repeat' split) <;> simp

@[simp] theorem markReceive_frame (filtered : Bool) (w : Word) (m : Lanes) (s : State) : (markReceive filtered w m
    s).pending = s.pending ∧ (markReceive filtered w m s).out = s.out ∧ (markReceive filtered w m s).bus = s.bus ∧
    (markReceive filtered w m s).admission = s.admission ∧ (markReceive filtered w m s).entries = s.entries ∧
    (markReceive filtered w m s).links = s.links ∧ (markReceive filtered w m s).game = s.game ∧ (markReceive
    filtered w m s).clock = s.clock ∧ (markReceive filtered w m s).handoff = s.handoff ∧ (markReceive filtered w m
    s).image = s.image ∧ (markReceive filtered w m s).gate = s.gate ∧ (markReceive filtered w m s).events = s.events
    ∧ (markReceive filtered w m s).loader = s.loader ∧ (markReceive filtered w m s).shadow = s.shadow := by
  unfold markReceive; (repeat' split) <;> simp

@[simp] theorem detectReceive_frame (l : Link) (w : Word) (m : Lanes) (s : State) : (detectReceive l w m s).pending
    = s.pending ∧ (detectReceive l w m s).out = s.out ∧ (detectReceive l w m s).admission = s.admission ∧
    (detectReceive l w m s).entries = s.entries ∧ (detectReceive l w m s).game = s.game ∧ (detectReceive l w m
    s).clock = s.clock ∧ (detectReceive l w m s).handoff = s.handoff ∧ (detectReceive l w m s).image = s.image ∧
    (detectReceive l w m s).loader = s.loader ∧ (detectReceive l w m s).shadow = s.shadow := by
  unfold detectReceive; (repeat' split) <;> simp

@[simp] theorem inspectReceive_frame (l : Link) (w : Word) (m : Lanes) (s : State) : (inspectReceive l w m
    s).pending = s.pending ∧ (inspectReceive l w m s).out = s.out ∧ (inspectReceive l w m s).admission = s.admission
    ∧ (inspectReceive l w m s).entries = s.entries ∧ (inspectReceive l w m s).game = s.game ∧ (inspectReceive l w m
    s).clock = s.clock ∧ (inspectReceive l w m s).handoff = s.handoff ∧ (inspectReceive l w m s).image = s.image ∧
    (inspectReceive l w m s).loader = s.loader ∧ (inspectReceive l w m s).shadow = s.shadow := by
  simp [inspectReceive]

@[simp] theorem judgeCommit_frame (st : StationId) (r : StationRecord) (s : State) : (judgeCommit st r s).pending =
    s.pending ∧ (judgeCommit st r s).out = s.out ∧ (judgeCommit st r s).game = s.game ∧ (judgeCommit st r s).clock =
    s.clock ∧ (judgeCommit st r s).image = s.image ∧ (judgeCommit st r s).loader = s.loader ∧ (judgeCommit st r
    s).shadow = s.shadow := by
  unfold judgeCommit; (repeat' split) <;> simp

@[simp] theorem recommit_frame (st : StationId) (r : StationRecord) (s : State) : (recommit st r s).pending =
    s.pending ∧ (recommit st r s).out = s.out ∧ (recommit st r s).game = s.game ∧ (recommit st r s).clock = s.clock
    ∧ (recommit st r s).image = s.image ∧ (recommit st r s).loader = s.loader ∧ (recommit st r s).shadow = s.shadow
    := by
  simp [recommit]

@[simp] theorem validateStation_frame (st : StationId) (r : StationRecord) (s : State) : (validateStation st r
    s).pending = s.pending ∧ (validateStation st r s).out = s.out ∧ (validateStation st r s).game = s.game ∧
    (validateStation st r s).clock = s.clock ∧ (validateStation st r s).image = s.image ∧ (validateStation st r
    s).loader = s.loader ∧ (validateStation st r s).shadow = s.shadow := by
  simp [validateStation]

@[simp] theorem invalidateStation_frame (st : StationId) (r : StationRecord) (s : State) : (invalidateStation st r
    s).pending = s.pending ∧ (invalidateStation st r s).out = s.out ∧ (invalidateStation st r s).game = s.game ∧
    (invalidateStation st r s).clock = s.clock ∧ (invalidateStation st r s).image = s.image ∧ (invalidateStation st
    r s).gate = s.gate ∧ (invalidateStation st r s).loader = s.loader ∧ (invalidateStation st r s).shadow = s.shadow
    := by
  unfold invalidateStation; dsimp only; (repeat' split) <;> simp

@[simp] theorem judgeRecord_frame (st : StationId) (r : StationRecord) (s : State) : (judgeRecord st r s).pending =
    s.pending ∧ (judgeRecord st r s).out = s.out ∧ (judgeRecord st r s).game = s.game ∧ (judgeRecord st r s).clock =
    s.clock ∧ (judgeRecord st r s).image = s.image ∧ (judgeRecord st r s).loader = s.loader ∧ (judgeRecord st r
    s).shadow = s.shadow := by
  unfold judgeRecord; (repeat' split) <;> simp

@[simp] theorem commitStation_frame (st : StationId) (s : State) : (commitStation st s).pending = s.pending ∧
    (commitStation st s).out = s.out ∧ (commitStation st s).game = s.game ∧ (commitStation st s).clock = s.clock ∧
    (commitStation st s).image = s.image ∧ (commitStation st s).loader = s.loader ∧ (commitStation st s).shadow =
    s.shadow := by
  unfold commitStation; dsimp only; (repeat' split) <;> simp

/-! ### Machine/Image.lean -/

@[simp] theorem setSession_frame (r : Result) (s : State) : (setSession r s).pending = s.pending ∧ (setSession r
    s).out = s.out ∧ (setSession r s).bus = s.bus ∧ (setSession r s).admission = s.admission ∧ (setSession r
    s).entries = s.entries ∧ (setSession r s).links = s.links ∧ (setSession r s).game = s.game ∧ (setSession r
    s).clock = s.clock ∧ (setSession r s).stations = s.stations ∧ (setSession r s).handoff = s.handoff ∧ (setSession
    r s).gate = s.gate ∧ (setSession r s).events = s.events ∧ (setSession r s).loader = s.loader ∧ (setSession r
    s).shadow = s.shadow := by
  simp [setSession]

@[simp] theorem openSession_frame (s : State) : (openSession s).pending = s.pending ∧ (openSession s).out = s.out ∧
    (openSession s).admission = s.admission ∧ (openSession s).entries = s.entries ∧ (openSession s).links = s.links
    ∧ (openSession s).game = s.game ∧ (openSession s).clock = s.clock ∧ (openSession s).stations = s.stations ∧
    (openSession s).handoff = s.handoff ∧ (openSession s).loader = s.loader ∧ (openSession s).shadow = s.shadow :=
    by
  unfold openSession; (repeat' split) <;> simp

@[simp] theorem closeSession_frame (s : State) : (closeSession s).pending = s.pending ∧ (closeSession s).out = s.out
    ∧ (closeSession s).admission = s.admission ∧ (closeSession s).entries = s.entries ∧ (closeSession s).links =
    s.links ∧ (closeSession s).game = s.game ∧ (closeSession s).clock = s.clock ∧ (closeSession s).stations =
    s.stations ∧ (closeSession s).handoff = s.handoff ∧ (closeSession s).loader = s.loader ∧ (closeSession s).shadow
    = s.shadow := by
  unfold closeSession; (repeat' split) <;> simp

@[simp] theorem sessionCommand_frame (c : ℕ) (s : State) : (sessionCommand c s).pending = s.pending ∧
    (sessionCommand c s).out = s.out ∧ (sessionCommand c s).admission = s.admission ∧ (sessionCommand c s).entries =
    s.entries ∧ (sessionCommand c s).links = s.links ∧ (sessionCommand c s).game = s.game ∧ (sessionCommand c
    s).clock = s.clock ∧ (sessionCommand c s).stations = s.stations ∧ (sessionCommand c s).handoff = s.handoff ∧
    (sessionCommand c s).loader = s.loader ∧ (sessionCommand c s).shadow = s.shadow := by
  unfold sessionCommand; (repeat' split) <;> simp

@[simp] theorem setBlock_frame (b : ℕ) (x : BlockState) (s : State) : (setBlock b x s).pending = s.pending ∧
    (setBlock b x s).out = s.out ∧ (setBlock b x s).bus = s.bus ∧ (setBlock b x s).admission = s.admission ∧
    (setBlock b x s).entries = s.entries ∧ (setBlock b x s).links = s.links ∧ (setBlock b x s).game = s.game ∧
    (setBlock b x s).clock = s.clock ∧ (setBlock b x s).stations = s.stations ∧ (setBlock b x s).handoff = s.handoff
    ∧ (setBlock b x s).gate = s.gate ∧ (setBlock b x s).events = s.events ∧ (setBlock b x s).loader = s.loader ∧
    (setBlock b x s).shadow = s.shadow := by
  simp [setBlock]

@[simp] theorem setContext_frame (c : ℕ) (x : FillContext) (s : State) : (setContext c x s).pending = s.pending ∧
    (setContext c x s).out = s.out ∧ (setContext c x s).bus = s.bus ∧ (setContext c x s).admission = s.admission ∧
    (setContext c x s).entries = s.entries ∧ (setContext c x s).links = s.links ∧ (setContext c x s).game = s.game ∧
    (setContext c x s).clock = s.clock ∧ (setContext c x s).stations = s.stations ∧ (setContext c x s).handoff =
    s.handoff ∧ (setContext c x s).gate = s.gate ∧ (setContext c x s).events = s.events ∧ (setContext c x s).loader
    = s.loader ∧ (setContext c x s).shadow = s.shadow := by
  simp [setContext]

@[simp] theorem freeContext_frame (c : ℕ) (s : State) : (freeContext c s).pending = s.pending ∧ (freeContext c
    s).out = s.out ∧ (freeContext c s).bus = s.bus ∧ (freeContext c s).admission = s.admission ∧ (freeContext c
    s).entries = s.entries ∧ (freeContext c s).links = s.links ∧ (freeContext c s).game = s.game ∧ (freeContext c
    s).clock = s.clock ∧ (freeContext c s).stations = s.stations ∧ (freeContext c s).handoff = s.handoff ∧
    (freeContext c s).gate = s.gate ∧ (freeContext c s).events = s.events ∧ (freeContext c s).loader = s.loader ∧
    (freeContext c s).shadow = s.shadow := by
  simp [freeContext]

@[simp] theorem freeContextFor_frame (b : ℕ) (s : State) : (freeContextFor b s).pending = s.pending ∧
    (freeContextFor b s).out = s.out ∧ (freeContextFor b s).bus = s.bus ∧ (freeContextFor b s).admission =
    s.admission ∧ (freeContextFor b s).entries = s.entries ∧ (freeContextFor b s).links = s.links ∧ (freeContextFor
    b s).game = s.game ∧ (freeContextFor b s).clock = s.clock ∧ (freeContextFor b s).stations = s.stations ∧
    (freeContextFor b s).handoff = s.handoff ∧ (freeContextFor b s).gate = s.gate ∧ (freeContextFor b s).events =
    s.events ∧ (freeContextFor b s).loader = s.loader ∧ (freeContextFor b s).shadow = s.shadow := by
  unfold freeContextFor; (repeat' split) <;> simp

@[simp] theorem setVerified_frame (n : ℕ) (s : State) : (setVerified n s).pending = s.pending ∧ (setVerified n
    s).out = s.out ∧ (setVerified n s).admission = s.admission ∧ (setVerified n s).entries = s.entries ∧
    (setVerified n s).links = s.links ∧ (setVerified n s).game = s.game ∧ (setVerified n s).clock = s.clock ∧
    (setVerified n s).stations = s.stations ∧ (setVerified n s).handoff = s.handoff ∧ (setVerified n s).gate =
    s.gate ∧ (setVerified n s).events = s.events ∧ (setVerified n s).loader = s.loader ∧ (setVerified n s).shadow =
    s.shadow := by
  simp [setVerified]

@[simp] theorem loseVerified_frame (s : State) : (loseVerified s).pending = s.pending ∧ (loseVerified s).out = s.out
    ∧ (loseVerified s).admission = s.admission ∧ (loseVerified s).entries = s.entries ∧ (loseVerified s).links =
    s.links ∧ (loseVerified s).game = s.game ∧ (loseVerified s).clock = s.clock ∧ (loseVerified s).stations =
    s.stations ∧ (loseVerified s).handoff = s.handoff ∧ (loseVerified s).loader = s.loader ∧ (loseVerified s).shadow
    = s.shadow := by
  unfold loseVerified; dsimp only; (repeat' split) <;> simp

@[simp] theorem gainVerified_frame (s : State) : (gainVerified s).pending = s.pending ∧ (gainVerified s).out = s.out
    ∧ (gainVerified s).admission = s.admission ∧ (gainVerified s).entries = s.entries ∧ (gainVerified s).links =
    s.links ∧ (gainVerified s).game = s.game ∧ (gainVerified s).clock = s.clock ∧ (gainVerified s).stations =
    s.stations ∧ (gainVerified s).handoff = s.handoff ∧ (gainVerified s).loader = s.loader ∧ (gainVerified s).shadow
    = s.shadow := by
  unfold gainVerified; dsimp only; (repeat' split) <;> simp

@[simp] theorem serveContext_frame (c : ℕ) (b : ℕ) (w : Word) (s : State) : (serveContext c b w s).pending =
    s.pending ∧ (serveContext c b w s).out = s.out ∧ (serveContext c b w s).bus = s.bus ∧ (serveContext c b w
    s).admission = s.admission ∧ (serveContext c b w s).entries = s.entries ∧ (serveContext c b w s).links = s.links
    ∧ (serveContext c b w s).game = s.game ∧ (serveContext c b w s).clock = s.clock ∧ (serveContext c b w
    s).stations = s.stations ∧ (serveContext c b w s).handoff = s.handoff ∧ (serveContext c b w s).gate = s.gate ∧
    (serveContext c b w s).events = s.events ∧ (serveContext c b w s).loader = s.loader ∧ (serveContext c b w
    s).shadow = s.shadow := by
  simp [serveContext]

@[simp] theorem takeContext_frame (b : ℕ) (w : Word) (s : State) : (takeContext b w s).pending = s.pending ∧
    (takeContext b w s).out = s.out ∧ (takeContext b w s).admission = s.admission ∧ (takeContext b w s).entries =
    s.entries ∧ (takeContext b w s).links = s.links ∧ (takeContext b w s).game = s.game ∧ (takeContext b w s).clock
    = s.clock ∧ (takeContext b w s).stations = s.stations ∧ (takeContext b w s).handoff = s.handoff ∧ (takeContext b
    w s).gate = s.gate ∧ (takeContext b w s).loader = s.loader ∧ (takeContext b w s).shadow = s.shadow := by
  unfold takeContext; (repeat' split) <;> simp

@[simp] theorem beginBlock_frame (b : ℕ) (w : Word) (s : State) : (beginBlock b w s).pending = s.pending ∧
    (beginBlock b w s).out = s.out ∧ (beginBlock b w s).admission = s.admission ∧ (beginBlock b w s).entries =
    s.entries ∧ (beginBlock b w s).links = s.links ∧ (beginBlock b w s).game = s.game ∧ (beginBlock b w s).clock =
    s.clock ∧ (beginBlock b w s).stations = s.stations ∧ (beginBlock b w s).handoff = s.handoff ∧ (beginBlock b w
    s).loader = s.loader ∧ (beginBlock b w s).shadow = s.shadow := by
  unfold beginBlock; (repeat' split) <;> simp

@[simp] theorem advanceBlock_frame (c : ℕ) (x : FillContext) (w : Word) (s : State) : (advanceBlock c x w s).pending
    = s.pending ∧ (advanceBlock c x w s).out = s.out ∧ (advanceBlock c x w s).bus = s.bus ∧ (advanceBlock c x w
    s).admission = s.admission ∧ (advanceBlock c x w s).entries = s.entries ∧ (advanceBlock c x w s).links = s.links
    ∧ (advanceBlock c x w s).game = s.game ∧ (advanceBlock c x w s).clock = s.clock ∧ (advanceBlock c x w
    s).stations = s.stations ∧ (advanceBlock c x w s).handoff = s.handoff ∧ (advanceBlock c x w s).gate = s.gate ∧
    (advanceBlock c x w s).events = s.events ∧ (advanceBlock c x w s).loader = s.loader ∧ (advanceBlock c x w
    s).shadow = s.shadow := by
  simp [advanceBlock]

@[simp] theorem finishBlock_frame (c : ℕ) (b : ℕ) (x : FillContext) (w : Word) (s : State) : (finishBlock c b x w
    s).pending = s.pending ∧ (finishBlock c b x w s).out = s.out ∧ (finishBlock c b x w s).admission = s.admission ∧
    (finishBlock c b x w s).entries = s.entries ∧ (finishBlock c b x w s).links = s.links ∧ (finishBlock c b x w
    s).game = s.game ∧ (finishBlock c b x w s).clock = s.clock ∧ (finishBlock c b x w s).stations = s.stations ∧
    (finishBlock c b x w s).handoff = s.handoff ∧ (finishBlock c b x w s).loader = s.loader ∧ (finishBlock c b x w
    s).shadow = s.shadow := by
  unfold finishBlock; (repeat' split) <;> simp

@[simp] theorem spoilBlock_frame (b : ℕ) (cause : BadCause) (s : State) : (spoilBlock b cause s).pending = s.pending
    ∧ (spoilBlock b cause s).out = s.out ∧ (spoilBlock b cause s).admission = s.admission ∧ (spoilBlock b cause
    s).entries = s.entries ∧ (spoilBlock b cause s).links = s.links ∧ (spoilBlock b cause s).game = s.game ∧
    (spoilBlock b cause s).clock = s.clock ∧ (spoilBlock b cause s).stations = s.stations ∧ (spoilBlock b cause
    s).handoff = s.handoff ∧ (spoilBlock b cause s).loader = s.loader ∧ (spoilBlock b cause s).shadow = s.shadow :=
    by
  unfold spoilBlock; (repeat' split) <;> simp

@[simp] theorem imageBeat_frame (off : ℕ) (w : WrittenWord) (s : State) : (imageBeat off w s).pending = s.pending ∧
    (imageBeat off w s).out = s.out ∧ (imageBeat off w s).admission = s.admission ∧ (imageBeat off w s).entries =
    s.entries ∧ (imageBeat off w s).links = s.links ∧ (imageBeat off w s).game = s.game ∧ (imageBeat off w s).clock
    = s.clock ∧ (imageBeat off w s).stations = s.stations ∧ (imageBeat off w s).handoff = s.handoff ∧ (imageBeat off
    w s).loader = s.loader ∧ (imageBeat off w s).shadow = s.shadow := by
  unfold imageBeat; dsimp only; (repeat' split) <;> simp

@[simp] theorem imageBeats_frame (ws : List WrittenWord) (s : State) : (imageBeats ws s).pending = s.pending ∧
    (imageBeats ws s).out = s.out ∧ (imageBeats ws s).admission = s.admission ∧ (imageBeats ws s).entries =
    s.entries ∧ (imageBeats ws s).links = s.links ∧ (imageBeats ws s).game = s.game ∧ (imageBeats ws s).clock =
    s.clock ∧ (imageBeats ws s).stations = s.stations ∧ (imageBeats ws s).handoff = s.handoff ∧ (imageBeats ws
    s).loader = s.loader ∧ (imageBeats ws s).shadow = s.shadow := by
  simp [imageBeats]

@[simp] theorem stopImage_frame (s : State) : (stopImage s).pending = s.pending ∧ (stopImage s).out = s.out ∧
    (stopImage s).admission = s.admission ∧ (stopImage s).entries = s.entries ∧ (stopImage s).links = s.links ∧
    (stopImage s).game = s.game ∧ (stopImage s).clock = s.clock ∧ (stopImage s).stations = s.stations ∧ (stopImage
    s).handoff = s.handoff ∧ (stopImage s).loader = s.loader ∧ (stopImage s).shadow = s.shadow := by
  simp [stopImage]

end Sys2Proof.Machine
end

