-- ==== Sys2Proof/Laws/FramePart.lean ====
section
/-! SUPPORT. Frames: the parts of the state that each operation leaves as they were, for the loader, the bus path and the commands of time. -/

namespace Sys2Proof.Machine

open Sys2Proof

/-! ### Machine/Loader.lean -/

@[simp] theorem setLoader_frame (f : Loader → Loader) (s : State) : (setLoader f s).pending = s.pending ∧ (setLoader
    f s).out = s.out ∧ (setLoader f s).bus = s.bus ∧ (setLoader f s).admission = s.admission ∧ (setLoader f
    s).entries = s.entries ∧ (setLoader f s).links = s.links ∧ (setLoader f s).game = s.game ∧ (setLoader f s).clock
    = s.clock ∧ (setLoader f s).stations = s.stations ∧ (setLoader f s).handoff = s.handoff ∧ (setLoader f s).image
    = s.image ∧ (setLoader f s).gate = s.gate ∧ (setLoader f s).events = s.events ∧ (setLoader f s).shadow =
    s.shadow := by
  simp [setLoader]

@[simp] theorem issueLoadRead_frame (off : ℕ) (d : Load) (s : State) : (issueLoadRead off d s).pending = s.pending ∧
    (issueLoadRead off d s).out = s.out ∧ (issueLoadRead off d s).admission = s.admission ∧ (issueLoadRead off d
    s).entries = s.entries ∧ (issueLoadRead off d s).links = s.links ∧ (issueLoadRead off d s).game = s.game ∧
    (issueLoadRead off d s).clock = s.clock ∧ (issueLoadRead off d s).stations = s.stations ∧ (issueLoadRead off d
    s).handoff = s.handoff ∧ (issueLoadRead off d s).image = s.image ∧ (issueLoadRead off d s).gate = s.gate ∧
    (issueLoadRead off d s).events = s.events ∧ (issueLoadRead off d s).shadow = s.shadow := by
  simp [issueLoadRead]

@[simp] theorem takeCommand_frame (c : ℕ) (r : Result) (s : State) : (takeCommand c r s).pending = s.pending ∧
    (takeCommand c r s).out = s.out ∧ (takeCommand c r s).bus = s.bus ∧ (takeCommand c r s).admission = s.admission
    ∧ (takeCommand c r s).entries = s.entries ∧ (takeCommand c r s).links = s.links ∧ (takeCommand c r s).game =
    s.game ∧ (takeCommand c r s).clock = s.clock ∧ (takeCommand c r s).stations = s.stations ∧ (takeCommand c r
    s).handoff = s.handoff ∧ (takeCommand c r s).image = s.image ∧ (takeCommand c r s).gate = s.gate ∧ (takeCommand
    c r s).events = s.events ∧ (takeCommand c r s).shadow = s.shadow := by
  simp [takeCommand]

@[simp] theorem beginLoad_frame (s : State) : (beginLoad s).pending = s.pending ∧ (beginLoad s).out = s.out ∧
    (beginLoad s).admission = s.admission ∧ (beginLoad s).entries = s.entries ∧ (beginLoad s).links = s.links ∧
    (beginLoad s).game = s.game ∧ (beginLoad s).clock = s.clock ∧ (beginLoad s).stations = s.stations ∧ (beginLoad
    s).handoff = s.handoff ∧ (beginLoad s).image = s.image ∧ (beginLoad s).gate = s.gate ∧ (beginLoad s).events =
    s.events ∧ (beginLoad s).shadow = s.shadow := by
  simp [beginLoad]

@[simp] theorem mergeLoading_frame (off : ℕ) (w : Word) (m : Lanes) (s : State) : (mergeLoading off w m s).pending =
    s.pending ∧ (mergeLoading off w m s).out = s.out ∧ (mergeLoading off w m s).bus = s.bus ∧ (mergeLoading off w m
    s).admission = s.admission ∧ (mergeLoading off w m s).entries = s.entries ∧ (mergeLoading off w m s).links =
    s.links ∧ (mergeLoading off w m s).game = s.game ∧ (mergeLoading off w m s).clock = s.clock ∧ (mergeLoading off
    w m s).stations = s.stations ∧ (mergeLoading off w m s).handoff = s.handoff ∧ (mergeLoading off w m s).image =
    s.image ∧ (mergeLoading off w m s).gate = s.gate ∧ (mergeLoading off w m s).events = s.events ∧ (mergeLoading
    off w m s).shadow = s.shadow := by
  unfold mergeLoading; (repeat' split) <;> simp

@[simp] theorem clearReady_frame (s : State) : (clearReady s).pending = s.pending ∧ (clearReady s).out = s.out ∧
    (clearReady s).bus = s.bus ∧ (clearReady s).admission = s.admission ∧ (clearReady s).entries = s.entries ∧
    (clearReady s).game = s.game ∧ (clearReady s).clock = s.clock ∧ (clearReady s).stations = s.stations ∧
    (clearReady s).handoff = s.handoff ∧ (clearReady s).image = s.image ∧ (clearReady s).gate = s.gate ∧ (clearReady
    s).events = s.events ∧ (clearReady s).loader = s.loader ∧ (clearReady s).shadow = s.shadow := by
  simp [clearReady]

@[simp] theorem failLoad_frame (r : LoadReason) (subject : ℕ) (value : ℕ) (progress : ℕ) (silent : Bool) (s : State)
    : (failLoad r subject value progress silent s).pending = s.pending ∧ (failLoad r subject value progress silent
    s).out = s.out ∧ (failLoad r subject value progress silent s).admission = s.admission ∧ (failLoad r subject
    value progress silent s).entries = s.entries ∧ (failLoad r subject value progress silent s).game = s.game ∧
    (failLoad r subject value progress silent s).clock = s.clock ∧ (failLoad r subject value progress silent
    s).stations = s.stations ∧ (failLoad r subject value progress silent s).handoff = s.handoff ∧ (failLoad r
    subject value progress silent s).image = s.image ∧ (failLoad r subject value progress silent s).gate = s.gate ∧
    (failLoad r subject value progress silent s).shadow = s.shadow := by
  unfold failLoad; dsimp only; (repeat' split) <;> simp

@[simp] theorem loadStation_frame (st : StationId) (s : State) : (loadStation st s).pending = s.pending ∧
    (loadStation st s).out = s.out ∧ (loadStation st s).admission = s.admission ∧ (loadStation st s).entries =
    s.entries ∧ (loadStation st s).links = s.links ∧ (loadStation st s).game = s.game ∧ (loadStation st s).clock =
    s.clock ∧ (loadStation st s).handoff = s.handoff ∧ (loadStation st s).image = s.image ∧ (loadStation st s).gate
    = s.gate ∧ (loadStation st s).events = s.events ∧ (loadStation st s).loader = s.loader ∧ (loadStation st
    s).shadow = s.shadow := by
  unfold loadStation; dsimp only; (repeat' split) <;> simp

@[simp] theorem loadLink_frame (m : RegionMap) (l : Link) (s : State) : (loadLink m l s).pending = s.pending ∧
    (loadLink m l s).out = s.out ∧ (loadLink m l s).bus = s.bus ∧ (loadLink m l s).admission = s.admission ∧
    (loadLink m l s).entries = s.entries ∧ (loadLink m l s).game = s.game ∧ (loadLink m l s).clock = s.clock ∧
    (loadLink m l s).stations = s.stations ∧ (loadLink m l s).handoff = s.handoff ∧ (loadLink m l s).image = s.image
    ∧ (loadLink m l s).gate = s.gate ∧ (loadLink m l s).events = s.events ∧ (loadLink m l s).loader = s.loader ∧
    (loadLink m l s).shadow = s.shadow := by
  simp [loadLink]

@[simp] theorem foundCommand_frame (s : State) : (foundCommand s).pending = s.pending ∧ (foundCommand s).out = s.out
    ∧ (foundCommand s).admission = s.admission ∧ (foundCommand s).entries = s.entries ∧ (foundCommand s).links =
    s.links ∧ (foundCommand s).game = s.game ∧ (foundCommand s).clock = s.clock ∧ (foundCommand s).stations =
    s.stations ∧ (foundCommand s).handoff = s.handoff ∧ (foundCommand s).gate = s.gate ∧ (foundCommand s).events =
    s.events ∧ (foundCommand s).loader = s.loader ∧ (foundCommand s).shadow = s.shadow := by
  unfold foundCommand; (repeat' split) <;> simp

@[simp] theorem takeCopy_frame (d : Load) (s : State) : (takeCopy d s).pending = s.pending ∧ (takeCopy d s).out =
    s.out ∧ (takeCopy d s).bus = s.bus ∧ (takeCopy d s).admission = s.admission ∧ (takeCopy d s).entries = s.entries
    ∧ (takeCopy d s).links = s.links ∧ (takeCopy d s).clock = s.clock ∧ (takeCopy d s).stations = s.stations ∧
    (takeCopy d s).handoff = s.handoff ∧ (takeCopy d s).image = s.image ∧ (takeCopy d s).gate = s.gate ∧ (takeCopy d
    s).events = s.events := by
  simp [takeCopy]

@[simp] theorem loadGate_frame (s : State) : (loadGate s).pending = s.pending ∧ (loadGate s).out = s.out ∧ (loadGate
    s).admission = s.admission ∧ (loadGate s).entries = s.entries ∧ (loadGate s).links = s.links ∧ (loadGate s).game
    = s.game ∧ (loadGate s).clock = s.clock ∧ (loadGate s).stations = s.stations ∧ (loadGate s).handoff = s.handoff
    ∧ (loadGate s).image = s.image ∧ (loadGate s).loader = s.loader ∧ (loadGate s).shadow = s.shadow := by
  simp [loadGate]

@[simp] theorem succeed_frame (d : Load) (m : RegionMap) (s : State) : (succeed d m s).pending = s.pending ∧
    (succeed d m s).out = s.out ∧ (succeed d m s).admission = s.admission ∧ (succeed d m s).entries = s.entries ∧
    (succeed d m s).clock = s.clock ∧ (succeed d m s).handoff = s.handoff := by
  simp [succeed]

@[simp] theorem consumeLoaded_frame (off : ℕ) (beats : List Beat) (s : State) : (consumeLoaded off beats s).pending
    = s.pending ∧ (consumeLoaded off beats s).out = s.out ∧ (consumeLoaded off beats s).admission = s.admission ∧
    (consumeLoaded off beats s).entries = s.entries ∧ (consumeLoaded off beats s).links = s.links ∧ (consumeLoaded
    off beats s).game = s.game ∧ (consumeLoaded off beats s).clock = s.clock ∧ (consumeLoaded off beats s).stations
    = s.stations ∧ (consumeLoaded off beats s).handoff = s.handoff ∧ (consumeLoaded off beats s).image = s.image ∧
    (consumeLoaded off beats s).gate = s.gate ∧ (consumeLoaded off beats s).loader = s.loader ∧ (consumeLoaded off
    beats s).shadow = s.shadow := by
  unfold consumeLoaded; (repeat' split) <;> simp

@[simp] theorem continueLoad_frame (off : ℕ) (d : Load) (s : State) : (continueLoad off d s).pending = s.pending ∧
    (continueLoad off d s).out = s.out ∧ (continueLoad off d s).admission = s.admission ∧ (continueLoad off d
    s).entries = s.entries ∧ (continueLoad off d s).clock = s.clock ∧ (continueLoad off d s).handoff = s.handoff :=
    by
  unfold continueLoad; (repeat' split) <;> simp

@[simp] theorem returnLoad_frame (off : ℕ) (beats : List Beat) (s : State) : (returnLoad off beats s).pending =
    s.pending ∧ (returnLoad off beats s).out = s.out ∧ (returnLoad off beats s).admission = s.admission ∧
    (returnLoad off beats s).entries = s.entries ∧ (returnLoad off beats s).clock = s.clock ∧ (returnLoad off beats
    s).handoff = s.handoff := by
  unfold returnLoad; dsimp only; (repeat' split) <;> simp

@[simp] theorem returnReadySlots_frame (l : Link) (s : State) : (returnReadySlots l s).pending = s.pending ∧
    (returnReadySlots l s).out = s.out ∧ (returnReadySlots l s).admission = s.admission ∧ (returnReadySlots l
    s).entries = s.entries ∧ (returnReadySlots l s).game = s.game ∧ (returnReadySlots l s).clock = s.clock ∧
    (returnReadySlots l s).stations = s.stations ∧ (returnReadySlots l s).handoff = s.handoff ∧ (returnReadySlots l
    s).image = s.image ∧ (returnReadySlots l s).gate = s.gate ∧ (returnReadySlots l s).events = s.events ∧
    (returnReadySlots l s).loader = s.loader ∧ (returnReadySlots l s).shadow = s.shadow := by
  simp [returnReadySlots]

@[simp] theorem returnStalled_frame (l : Link) (s : State) : (returnStalled l s).pending = s.pending ∧
    (returnStalled l s).out = s.out ∧ (returnStalled l s).admission = s.admission ∧ (returnStalled l s).entries =
    s.entries ∧ (returnStalled l s).game = s.game ∧ (returnStalled l s).clock = s.clock ∧ (returnStalled l
    s).stations = s.stations ∧ (returnStalled l s).handoff = s.handoff ∧ (returnStalled l s).image = s.image ∧
    (returnStalled l s).gate = s.gate ∧ (returnStalled l s).events = s.events ∧ (returnStalled l s).loader =
    s.loader ∧ (returnStalled l s).shadow = s.shadow := by
  unfold returnStalled; (repeat' split) <;> simp

@[simp] theorem stopLink_frame (l : Link) (s : State) : (stopLink l s).pending = s.pending ∧ (stopLink l s).out =
    s.out ∧ (stopLink l s).admission = s.admission ∧ (stopLink l s).entries = s.entries ∧ (stopLink l s).game =
    s.game ∧ (stopLink l s).clock = s.clock ∧ (stopLink l s).stations = s.stations ∧ (stopLink l s).handoff =
    s.handoff ∧ (stopLink l s).image = s.image ∧ (stopLink l s).gate = s.gate ∧ (stopLink l s).events = s.events ∧
    (stopLink l s).loader = s.loader ∧ (stopLink l s).shadow = s.shadow := by
  simp [stopLink]

@[simp] theorem stopStation_frame (st : StationId) (s : State) : (stopStation st s).pending = s.pending ∧
    (stopStation st s).out = s.out ∧ (stopStation st s).bus = s.bus ∧ (stopStation st s).admission = s.admission ∧
    (stopStation st s).entries = s.entries ∧ (stopStation st s).game = s.game ∧ (stopStation st s).clock = s.clock ∧
    (stopStation st s).image = s.image ∧ (stopStation st s).gate = s.gate ∧ (stopStation st s).events = s.events ∧
    (stopStation st s).loader = s.loader ∧ (stopStation st s).shadow = s.shadow := by
  unfold stopStation; dsimp only; (repeat' split) <;> simp

@[simp] theorem returnQueued_frame (p : Link × Cls × ℕ) (s : State) : (returnQueued p s).pending = s.pending ∧
    (returnQueued p s).out = s.out ∧ (returnQueued p s).game = s.game ∧ (returnQueued p s).clock = s.clock ∧
    (returnQueued p s).image = s.image ∧ (returnQueued p s).gate = s.gate ∧ (returnQueued p s).loader = s.loader ∧
    (returnQueued p s).shadow = s.shadow := by
  unfold returnQueued; dsimp only; (repeat' split) <;> simp

@[simp] theorem returnHeld_frame (st : StationId) (i : ℕ) (s : State) : (returnHeld st i s).pending = s.pending ∧
    (returnHeld st i s).out = s.out ∧ (returnHeld st i s).links = s.links ∧ (returnHeld st i s).game = s.game ∧
    (returnHeld st i s).clock = s.clock ∧ (returnHeld st i s).image = s.image ∧ (returnHeld st i s).gate = s.gate ∧
    (returnHeld st i s).events = s.events ∧ (returnHeld st i s).loader = s.loader ∧ (returnHeld st i s).shadow =
    s.shadow := by
  simp [returnHeld]

@[simp] theorem returnHoldList_frame (st : StationId) (s : State) : (returnHoldList st s).pending = s.pending ∧
    (returnHoldList st s).out = s.out ∧ (returnHoldList st s).links = s.links ∧ (returnHoldList st s).game = s.game
    ∧ (returnHoldList st s).clock = s.clock ∧ (returnHoldList st s).image = s.image ∧ (returnHoldList st s).gate =
    s.gate ∧ (returnHoldList st s).events = s.events ∧ (returnHoldList st s).loader = s.loader ∧ (returnHoldList st
    s).shadow = s.shadow := by
  simp [returnHoldList]

@[simp] theorem stopGame_frame (s : State) : (stopGame s).pending = s.pending ∧ (stopGame s).out = s.out ∧ (stopGame
    s).bus = s.bus ∧ (stopGame s).admission = s.admission ∧ (stopGame s).entries = s.entries ∧ (stopGame s).links =
    s.links ∧ (stopGame s).clock = s.clock ∧ (stopGame s).stations = s.stations ∧ (stopGame s).handoff = s.handoff ∧
    (stopGame s).image = s.image ∧ (stopGame s).gate = s.gate ∧ (stopGame s).events = s.events ∧ (stopGame s).loader
    = s.loader ∧ (stopGame s).shadow = s.shadow := by
  simp [stopGame]

@[simp] theorem beginStop_frame (s : State) : (beginStop s).pending = s.pending ∧ (beginStop s).out = s.out ∧
    (beginStop s).clock = s.clock ∧ (beginStop s).shadow = s.shadow := by
  simp [beginStop]

@[simp] theorem abandonEntry_frame (l : Link) (f : InFlight) (s : State) : (abandonEntry l f s).pending = s.pending
    ∧ (abandonEntry l f s).out = s.out ∧ (abandonEntry l f s).game = s.game ∧ (abandonEntry l f s).clock = s.clock ∧
    (abandonEntry l f s).image = s.image ∧ (abandonEntry l f s).gate = s.gate ∧ (abandonEntry l f s).events =
    s.events ∧ (abandonEntry l f s).loader = s.loader ∧ (abandonEntry l f s).shadow = s.shadow := by
  unfold abandonEntry; dsimp only; (repeat' split) <;> simp

@[simp] theorem abandonInFlight_frame (l : Link) (s : State) : (abandonInFlight l s).pending = s.pending ∧
    (abandonInFlight l s).out = s.out ∧ (abandonInFlight l s).game = s.game ∧ (abandonInFlight l s).clock = s.clock
    ∧ (abandonInFlight l s).image = s.image ∧ (abandonInFlight l s).gate = s.gate ∧ (abandonInFlight l s).events =
    s.events ∧ (abandonInFlight l s).loader = s.loader ∧ (abandonInFlight l s).shadow = s.shadow := by
  simp [abandonInFlight]

@[simp] theorem abandonAccesses_frame (s : State) : (abandonAccesses s).pending = s.pending ∧ (abandonAccesses
    s).out = s.out ∧ (abandonAccesses s).admission = s.admission ∧ (abandonAccesses s).entries = s.entries ∧
    (abandonAccesses s).links = s.links ∧ (abandonAccesses s).game = s.game ∧ (abandonAccesses s).clock = s.clock ∧
    (abandonAccesses s).stations = s.stations ∧ (abandonAccesses s).handoff = s.handoff ∧ (abandonAccesses s).image
    = s.image ∧ (abandonAccesses s).gate = s.gate ∧ (abandonAccesses s).events = s.events ∧ (abandonAccesses
    s).loader = s.loader ∧ (abandonAccesses s).shadow = s.shadow := by
  unfold abandonAccesses; (repeat' split) <;> simp

@[simp] theorem abandonLink_frame (l : Link) (s : State) : (abandonLink l s).pending = s.pending ∧ (abandonLink l
    s).out = s.out ∧ (abandonLink l s).bus = s.bus ∧ (abandonLink l s).admission = s.admission ∧ (abandonLink l
    s).entries = s.entries ∧ (abandonLink l s).game = s.game ∧ (abandonLink l s).clock = s.clock ∧ (abandonLink l
    s).stations = s.stations ∧ (abandonLink l s).handoff = s.handoff ∧ (abandonLink l s).image = s.image ∧
    (abandonLink l s).gate = s.gate ∧ (abandonLink l s).events = s.events ∧ (abandonLink l s).loader = s.loader ∧
    (abandonLink l s).shadow = s.shadow := by
  simp [abandonLink]

@[simp] theorem abandonFill_frame (st : StationId) (s : State) : (abandonFill st s).pending = s.pending ∧
    (abandonFill st s).out = s.out ∧ (abandonFill st s).bus = s.bus ∧ (abandonFill st s).admission = s.admission ∧
    (abandonFill st s).entries = s.entries ∧ (abandonFill st s).links = s.links ∧ (abandonFill st s).game = s.game ∧
    (abandonFill st s).clock = s.clock ∧ (abandonFill st s).image = s.image ∧ (abandonFill st s).gate = s.gate ∧
    (abandonFill st s).events = s.events ∧ (abandonFill st s).loader = s.loader ∧ (abandonFill st s).shadow =
    s.shadow := by
  unfold abandonFill; (repeat' split) <;> simp

@[simp] theorem forwardAnswering_frame (r : ReadEntry) (s : State) : (forwardAnswering r s).pending = s.pending ∧
    (forwardAnswering r s).out = s.out ∧ (forwardAnswering r s).admission = s.admission ∧ (forwardAnswering r
    s).entries = s.entries ∧ (forwardAnswering r s).links = s.links ∧ (forwardAnswering r s).game = s.game ∧
    (forwardAnswering r s).clock = s.clock ∧ (forwardAnswering r s).stations = s.stations ∧ (forwardAnswering r
    s).handoff = s.handoff ∧ (forwardAnswering r s).image = s.image ∧ (forwardAnswering r s).gate = s.gate ∧
    (forwardAnswering r s).events = s.events ∧ (forwardAnswering r s).loader = s.loader ∧ (forwardAnswering r
    s).shadow = s.shadow := by
  unfold forwardAnswering; (repeat' split) <;> simp

@[simp] theorem stopByTimeout_frame (s : State) : (stopByTimeout s).pending = s.pending ∧ (stopByTimeout s).out =
    s.out ∧ (stopByTimeout s).game = s.game ∧ (stopByTimeout s).clock = s.clock ∧ (stopByTimeout s).image = s.image
    ∧ (stopByTimeout s).gate = s.gate ∧ (stopByTimeout s).shadow = s.shadow := by
  simp [stopByTimeout]

@[simp] theorem expireStop_frame (s : State) : (expireStop s).pending = s.pending ∧ (expireStop s).out = s.out ∧
    (expireStop s).game = s.game ∧ (expireStop s).clock = s.clock ∧ (expireStop s).image = s.image ∧ (expireStop
    s).gate = s.gate ∧ (expireStop s).shadow = s.shadow := by
  unfold expireStop; (repeat' split) <;> simp

@[simp] theorem deviceCommand_frame (c : ℕ) (s : State) : (deviceCommand c s).pending = s.pending ∧ (deviceCommand c
    s).out = s.out ∧ (deviceCommand c s).clock = s.clock ∧ (deviceCommand c s).shadow = s.shadow := by
  unfold deviceCommand; (repeat' split) <;> simp

/-! ### Machine/Bus.lean -/

@[simp] theorem forwardWrite_frame (addr : ℕ) (beats : List WriteBeat) (s : State) : (forwardWrite addr beats
    s).pending = s.pending ∧ (forwardWrite addr beats s).out = s.out ∧ (forwardWrite addr beats s).admission =
    s.admission ∧ (forwardWrite addr beats s).entries = s.entries ∧ (forwardWrite addr beats s).links = s.links ∧
    (forwardWrite addr beats s).game = s.game ∧ (forwardWrite addr beats s).clock = s.clock ∧ (forwardWrite addr
    beats s).stations = s.stations ∧ (forwardWrite addr beats s).handoff = s.handoff ∧ (forwardWrite addr beats
    s).image = s.image ∧ (forwardWrite addr beats s).gate = s.gate ∧ (forwardWrite addr beats s).events = s.events ∧
    (forwardWrite addr beats s).loader = s.loader ∧ (forwardWrite addr beats s).shadow = s.shadow := by
  simp [forwardWrite]

@[simp] theorem forwardAsIssued_frame (w : UpWrite) (s : State) : (forwardAsIssued w s).pending = s.pending ∧
    (forwardAsIssued w s).out = s.out ∧ (forwardAsIssued w s).admission = s.admission ∧ (forwardAsIssued w
    s).entries = s.entries ∧ (forwardAsIssued w s).links = s.links ∧ (forwardAsIssued w s).game = s.game ∧
    (forwardAsIssued w s).clock = s.clock ∧ (forwardAsIssued w s).stations = s.stations ∧ (forwardAsIssued w
    s).handoff = s.handoff ∧ (forwardAsIssued w s).image = s.image ∧ (forwardAsIssued w s).gate = s.gate ∧
    (forwardAsIssued w s).events = s.events ∧ (forwardAsIssued w s).loader = s.loader ∧ (forwardAsIssued w s).shadow
    = s.shadow := by
  simp [forwardAsIssued]

@[simp] theorem reportBad_frame (ws : List WrittenWord) (s : State) : (reportBad ws s).pending = s.pending ∧
    (reportBad ws s).out = s.out ∧ (reportBad ws s).admission = s.admission ∧ (reportBad ws s).entries = s.entries ∧
    (reportBad ws s).links = s.links ∧ (reportBad ws s).game = s.game ∧ (reportBad ws s).clock = s.clock ∧
    (reportBad ws s).stations = s.stations ∧ (reportBad ws s).handoff = s.handoff ∧ (reportBad ws s).image = s.image
    ∧ (reportBad ws s).gate = s.gate ∧ (reportBad ws s).loader = s.loader ∧ (reportBad ws s).shadow = s.shadow := by
  unfold reportBad; (repeat' split) <;> simp

@[simp] theorem reportOverwrite_frame (l : Link) (slot : ℕ) (first : ℕ) (s : State) : (reportOverwrite l slot first
    s).pending = s.pending ∧ (reportOverwrite l slot first s).out = s.out ∧ (reportOverwrite l slot first
    s).admission = s.admission ∧ (reportOverwrite l slot first s).entries = s.entries ∧ (reportOverwrite l slot
    first s).links = s.links ∧ (reportOverwrite l slot first s).game = s.game ∧ (reportOverwrite l slot first
    s).clock = s.clock ∧ (reportOverwrite l slot first s).stations = s.stations ∧ (reportOverwrite l slot first
    s).handoff = s.handoff ∧ (reportOverwrite l slot first s).image = s.image ∧ (reportOverwrite l slot first
    s).gate = s.gate ∧ (reportOverwrite l slot first s).loader = s.loader ∧ (reportOverwrite l slot first s).shadow
    = s.shadow := by
  unfold reportOverwrite; (repeat' split) <;> simp

@[simp] theorem reportIfReady_frame (l : Link) (slot : ℕ) (first : ℕ) (w : UpWrite) (s : State) : (reportIfReady l
    slot first w s).pending = s.pending ∧ (reportIfReady l slot first w s).out = s.out ∧ (reportIfReady l slot first
    w s).admission = s.admission ∧ (reportIfReady l slot first w s).entries = s.entries ∧ (reportIfReady l slot
    first w s).game = s.game ∧ (reportIfReady l slot first w s).clock = s.clock ∧ (reportIfReady l slot first w
    s).stations = s.stations ∧ (reportIfReady l slot first w s).handoff = s.handoff ∧ (reportIfReady l slot first w
    s).image = s.image ∧ (reportIfReady l slot first w s).gate = s.gate ∧ (reportIfReady l slot first w s).events =
    s.events ∧ (reportIfReady l slot first w s).loader = s.loader ∧ (reportIfReady l slot first w s).shadow =
    s.shadow := by
  unfold reportIfReady; (repeat' split) <;> simp

@[simp] theorem stagingWrite_frame (l : Link) (slot : ℕ) (first : ℕ) (w : UpWrite) (s : State) : (stagingWrite l
    slot first w s).pending = s.pending ∧ (stagingWrite l slot first w s).out = s.out ∧ (stagingWrite l slot first w
    s).admission = s.admission ∧ (stagingWrite l slot first w s).entries = s.entries ∧ (stagingWrite l slot first w
    s).game = s.game ∧ (stagingWrite l slot first w s).clock = s.clock ∧ (stagingWrite l slot first w s).stations =
    s.stations ∧ (stagingWrite l slot first w s).handoff = s.handoff ∧ (stagingWrite l slot first w s).image =
    s.image ∧ (stagingWrite l slot first w s).gate = s.gate ∧ (stagingWrite l slot first w s).loader = s.loader ∧
    (stagingWrite l slot first w s).shadow = s.shadow := by
  simp [stagingWrite]

@[simp] theorem inspectWrite_frame (l : Link) (first : ℕ) (x : WrittenWord) (w : UpWrite) (s : State) :
    (inspectWrite l first x w s).pending = s.pending ∧ (inspectWrite l first x w s).out = s.out ∧ (inspectWrite l
    first x w s).admission = s.admission ∧ (inspectWrite l first x w s).entries = s.entries ∧ (inspectWrite l first
    x w s).game = s.game ∧ (inspectWrite l first x w s).clock = s.clock ∧ (inspectWrite l first x w s).handoff =
    s.handoff ∧ (inspectWrite l first x w s).image = s.image ∧ (inspectWrite l first x w s).loader = s.loader ∧
    (inspectWrite l first x w s).shadow = s.shadow := by
  unfold inspectWrite; (repeat' split) <;> simp

@[simp] theorem receiveWrite_frame (l : Link) (first : ℕ) (w : UpWrite) (s : State) : (receiveWrite l first w
    s).pending = s.pending ∧ (receiveWrite l first w s).out = s.out ∧ (receiveWrite l first w s).admission =
    s.admission ∧ (receiveWrite l first w s).entries = s.entries ∧ (receiveWrite l first w s).game = s.game ∧
    (receiveWrite l first w s).clock = s.clock ∧ (receiveWrite l first w s).handoff = s.handoff ∧ (receiveWrite l
    first w s).image = s.image ∧ (receiveWrite l first w s).loader = s.loader ∧ (receiveWrite l first w s).shadow =
    s.shadow := by
  unfold receiveWrite; (repeat' split) <;> simp

@[simp] theorem egressWrite_frame (l : Link) (slot : ℕ) (first : ℕ) (w : UpWrite) (s : State) : (egressWrite l slot
    first w s).pending = s.pending ∧ (egressWrite l slot first w s).out = s.out ∧ (egressWrite l slot first w
    s).game = s.game ∧ (egressWrite l slot first w s).clock = s.clock ∧ (egressWrite l slot first w s).image =
    s.image ∧ (egressWrite l slot first w s).shadow = s.shadow := by
  unfold egressWrite; (repeat' split) <;> simp

@[simp] theorem imageWrite_frame (w : UpWrite) (s : State) : (imageWrite w s).pending = s.pending ∧ (imageWrite w
    s).out = s.out ∧ (imageWrite w s).admission = s.admission ∧ (imageWrite w s).entries = s.entries ∧ (imageWrite w
    s).links = s.links ∧ (imageWrite w s).game = s.game ∧ (imageWrite w s).clock = s.clock ∧ (imageWrite w
    s).stations = s.stations ∧ (imageWrite w s).handoff = s.handoff ∧ (imageWrite w s).loader = s.loader ∧
    (imageWrite w s).shadow = s.shadow := by
  simp [imageWrite]

@[simp] theorem mergeShadow_frame (p : PolicyWord) (s : State) : (mergeShadow p s).pending = s.pending ∧
    (mergeShadow p s).out = s.out ∧ (mergeShadow p s).bus = s.bus ∧ (mergeShadow p s).admission = s.admission ∧
    (mergeShadow p s).entries = s.entries ∧ (mergeShadow p s).links = s.links ∧ (mergeShadow p s).game = s.game ∧
    (mergeShadow p s).clock = s.clock ∧ (mergeShadow p s).stations = s.stations ∧ (mergeShadow p s).handoff =
    s.handoff ∧ (mergeShadow p s).image = s.image ∧ (mergeShadow p s).gate = s.gate ∧ (mergeShadow p s).events =
    s.events ∧ (mergeShadow p s).loader = s.loader := by
  simp [mergeShadow]

@[simp] theorem clockWordWritten_frame (m : Lanes) (s : State) : (clockWordWritten m s).pending = s.pending ∧
    (clockWordWritten m s).out = s.out ∧ (clockWordWritten m s).admission = s.admission ∧ (clockWordWritten m
    s).entries = s.entries ∧ (clockWordWritten m s).links = s.links ∧ (clockWordWritten m s).game = s.game ∧
    (clockWordWritten m s).handoff = s.handoff ∧ (clockWordWritten m s).image = s.image ∧ (clockWordWritten m
    s).loader = s.loader ∧ (clockWordWritten m s).shadow = s.shadow := by
  unfold clockWordWritten; (repeat' split) <;> simp

@[simp] theorem consumerWordWritten_frame (m : Lanes) (s : State) : (consumerWordWritten m s).pending = s.pending ∧
    (consumerWordWritten m s).out = s.out ∧ (consumerWordWritten m s).admission = s.admission ∧ (consumerWordWritten
    m s).entries = s.entries ∧ (consumerWordWritten m s).links = s.links ∧ (consumerWordWritten m s).game = s.game ∧
    (consumerWordWritten m s).clock = s.clock ∧ (consumerWordWritten m s).stations = s.stations ∧
    (consumerWordWritten m s).handoff = s.handoff ∧ (consumerWordWritten m s).image = s.image ∧ (consumerWordWritten
    m s).gate = s.gate ∧ (consumerWordWritten m s).loader = s.loader ∧ (consumerWordWritten m s).shadow = s.shadow
    := by
  unfold consumerWordWritten; (repeat' split) <;> simp

@[simp] theorem thresholdWordWritten_frame (m : Lanes) (s : State) : (thresholdWordWritten m s).pending = s.pending
    ∧ (thresholdWordWritten m s).out = s.out ∧ (thresholdWordWritten m s).bus = s.bus ∧ (thresholdWordWritten m
    s).admission = s.admission ∧ (thresholdWordWritten m s).entries = s.entries ∧ (thresholdWordWritten m s).links =
    s.links ∧ (thresholdWordWritten m s).game = s.game ∧ (thresholdWordWritten m s).clock = s.clock ∧
    (thresholdWordWritten m s).stations = s.stations ∧ (thresholdWordWritten m s).handoff = s.handoff ∧
    (thresholdWordWritten m s).image = s.image ∧ (thresholdWordWritten m s).gate = s.gate ∧ (thresholdWordWritten m
    s).loader = s.loader ∧ (thresholdWordWritten m s).shadow = s.shadow := by
  unfold thresholdWordWritten; (repeat' split) <;> simp

@[simp] theorem burstWordWritten_frame (l : Link) (m : Lanes) (s : State) : (burstWordWritten l m s).pending =
    s.pending ∧ (burstWordWritten l m s).out = s.out ∧ (burstWordWritten l m s).bus = s.bus ∧ (burstWordWritten l m
    s).admission = s.admission ∧ (burstWordWritten l m s).entries = s.entries ∧ (burstWordWritten l m s).game =
    s.game ∧ (burstWordWritten l m s).clock = s.clock ∧ (burstWordWritten l m s).stations = s.stations ∧
    (burstWordWritten l m s).handoff = s.handoff ∧ (burstWordWritten l m s).image = s.image ∧ (burstWordWritten l m
    s).gate = s.gate ∧ (burstWordWritten l m s).events = s.events ∧ (burstWordWritten l m s).loader = s.loader ∧
    (burstWordWritten l m s).shadow = s.shadow := by
  unfold burstWordWritten; (repeat' split) <;> simp

@[simp] theorem sessionWordWritten_frame (m : Lanes) (s : State) : (sessionWordWritten m s).pending = s.pending ∧
    (sessionWordWritten m s).out = s.out ∧ (sessionWordWritten m s).admission = s.admission ∧ (sessionWordWritten m
    s).entries = s.entries ∧ (sessionWordWritten m s).links = s.links ∧ (sessionWordWritten m s).game = s.game ∧
    (sessionWordWritten m s).clock = s.clock ∧ (sessionWordWritten m s).stations = s.stations ∧ (sessionWordWritten
    m s).handoff = s.handoff ∧ (sessionWordWritten m s).loader = s.loader ∧ (sessionWordWritten m s).shadow =
    s.shadow := by
  unfold sessionWordWritten; (repeat' split) <;> simp

@[simp] theorem maintenanceWordWritten_frame (m : Lanes) (s : State) : (maintenanceWordWritten m s).pending =
    s.pending ∧ (maintenanceWordWritten m s).out = s.out ∧ (maintenanceWordWritten m s).admission = s.admission ∧
    (maintenanceWordWritten m s).entries = s.entries ∧ (maintenanceWordWritten m s).links = s.links ∧
    (maintenanceWordWritten m s).game = s.game ∧ (maintenanceWordWritten m s).clock = s.clock ∧
    (maintenanceWordWritten m s).stations = s.stations ∧ (maintenanceWordWritten m s).handoff = s.handoff ∧
    (maintenanceWordWritten m s).image = s.image ∧ (maintenanceWordWritten m s).loader = s.loader ∧
    (maintenanceWordWritten m s).shadow = s.shadow := by
  unfold maintenanceWordWritten; (repeat' split) <;> simp

@[simp] theorem deviceWordWritten_frame (m : Lanes) (s : State) : (deviceWordWritten m s).pending = s.pending ∧
    (deviceWordWritten m s).out = s.out ∧ (deviceWordWritten m s).clock = s.clock ∧ (deviceWordWritten m s).shadow =
    s.shadow := by
  unfold deviceWordWritten; (repeat' split) <;> simp

@[simp] theorem actActive_frame (p : PolicyWord) (s : State) : (actActive p s).pending = s.pending ∧ (actActive p
    s).out = s.out ∧ (actActive p s).game = s.game ∧ (actActive p s).loader = s.loader ∧ (actActive p s).shadow =
    s.shadow := by
  unfold actActive; (repeat' split) <;> simp

@[simp] theorem actStopping_frame (p : PolicyWord) (s : State) : (actStopping p s).pending = s.pending ∧
    (actStopping p s).out = s.out ∧ (actStopping p s).admission = s.admission ∧ (actStopping p s).entries =
    s.entries ∧ (actStopping p s).links = s.links ∧ (actStopping p s).game = s.game ∧ (actStopping p s).clock =
    s.clock ∧ (actStopping p s).stations = s.stations ∧ (actStopping p s).handoff = s.handoff ∧ (actStopping p
    s).image = s.image ∧ (actStopping p s).gate = s.gate ∧ (actStopping p s).loader = s.loader ∧ (actStopping p
    s).shadow = s.shadow := by
  unfold actStopping; (repeat' split) <;> simp

@[simp] theorem takeLoading_frame (p : PolicyWord) (s : State) : (takeLoading p s).pending = s.pending ∧
    (takeLoading p s).out = s.out ∧ (takeLoading p s).admission = s.admission ∧ (takeLoading p s).entries =
    s.entries ∧ (takeLoading p s).links = s.links ∧ (takeLoading p s).game = s.game ∧ (takeLoading p s).handoff =
    s.handoff ∧ (takeLoading p s).image = s.image := by
  unfold takeLoading; dsimp only; (repeat' split) <;> simp

@[simp] theorem profilesWritten_frame (ps : List PolicyWord) (s : State) : (profilesWritten ps s).pending =
    s.pending ∧ (profilesWritten ps s).out = s.out ∧ (profilesWritten ps s).admission = s.admission ∧
    (profilesWritten ps s).entries = s.entries ∧ (profilesWritten ps s).links = s.links ∧ (profilesWritten ps
    s).game = s.game ∧ (profilesWritten ps s).clock = s.clock ∧ (profilesWritten ps s).stations = s.stations ∧
    (profilesWritten ps s).handoff = s.handoff ∧ (profilesWritten ps s).image = s.image ∧ (profilesWritten ps
    s).loader = s.loader ∧ (profilesWritten ps s).shadow = s.shadow := by
  unfold profilesWritten; (repeat' split) <;> simp

@[simp] theorem deviceWritten_frame (ps : List PolicyWord) (s : State) : (deviceWritten ps s).pending = s.pending ∧
    (deviceWritten ps s).out = s.out ∧ (deviceWritten ps s).clock = s.clock ∧ (deviceWritten ps s).shadow = s.shadow
    := by
  unfold deviceWritten; (repeat' split) <;> simp

@[simp] theorem policyActive_frame (ps : List PolicyWord) (s : State) : (policyActive ps s).pending = s.pending ∧
    (policyActive ps s).out = s.out := by
  simp [policyActive]

@[simp] theorem policyStopping_frame (ps : List PolicyWord) (s : State) : (policyStopping ps s).pending = s.pending
    ∧ (policyStopping ps s).out = s.out ∧ (policyStopping ps s).admission = s.admission ∧ (policyStopping ps
    s).entries = s.entries ∧ (policyStopping ps s).links = s.links ∧ (policyStopping ps s).game = s.game ∧
    (policyStopping ps s).clock = s.clock ∧ (policyStopping ps s).stations = s.stations ∧ (policyStopping ps
    s).handoff = s.handoff ∧ (policyStopping ps s).image = s.image ∧ (policyStopping ps s).gate = s.gate ∧
    (policyStopping ps s).loader = s.loader := by
  simp [policyStopping]

@[simp] theorem policyTransparent_frame (ps : List PolicyWord) (s : State) : (policyTransparent ps s).pending =
    s.pending ∧ (policyTransparent ps s).out = s.out ∧ (policyTransparent ps s).clock = s.clock := by
  simp [policyTransparent]

@[simp] theorem policyWrite_frame (w : UpWrite) (s : State) : (policyWrite w s).pending = s.pending ∧ (policyWrite w
    s).out = s.out := by
  unfold policyWrite; dsimp only; (repeat' split) <;> simp

@[simp] theorem treatWrite_frame (w : UpWrite) (s : State) : (treatWrite w s).pending = s.pending ∧ (treatWrite w
    s).out = s.out := by
  unfold treatWrite; (repeat' split) <;> simp

@[simp] theorem upstreamWrite_frame (w : UpWrite) (s : State) : (upstreamWrite w s).pending = s.pending := by
  unfold upstreamWrite; (repeat' split) <;> simp

@[simp] theorem handEgress_frame (l : Link) (e : ReadEntry) (slot : ℕ) (first : ℕ) (s : State) : (handEgress l e
    slot first s).pending = s.pending ∧ (handEgress l e slot first s).clock = s.clock ∧ (handEgress l e slot first
    s).image = s.image ∧ (handEgress l e slot first s).loader = s.loader ∧ (handEgress l e slot first s).shadow =
    s.shadow := by
  unfold handEgress; (repeat' split) <;> simp

@[simp] theorem classifyRead_frame (e : ReadEntry) (s : State) : (classifyRead e s).pending = s.pending ∧
    (classifyRead e s).clock = s.clock ∧ (classifyRead e s).image = s.image ∧ (classifyRead e s).loader = s.loader ∧
    (classifyRead e s).shadow = s.shadow := by
  unfold classifyRead; (repeat' split) <;> simp

@[simp] theorem takeRead_frame (r : UpRead) (s : State) : (takeRead r s).pending = s.pending ∧ (takeRead r s).clock
    = s.clock ∧ (takeRead r s).image = s.image ∧ (takeRead r s).loader = s.loader ∧ (takeRead r s).shadow = s.shadow
    := by
  simp [takeRead]

@[simp] theorem issueRead_frame (r : UpRead) (s : State) : (issueRead r s).pending = s.pending ∧ (issueRead r
    s).clock = s.clock ∧ (issueRead r s).image = s.image ∧ (issueRead r s).loader = s.loader ∧ (issueRead r
    s).shadow = s.shadow := by
  unfold issueRead; (repeat' split) <;> simp

@[simp] theorem takePortRead_frame (s : State) : (takePortRead s).pending = s.pending ∧ (takePortRead s).clock =
    s.clock ∧ (takePortRead s).image = s.image ∧ (takePortRead s).loader = s.loader ∧ (takePortRead s).shadow =
    s.shadow := by
  unfold takePortRead; (repeat' split) <;> simp

@[simp] theorem upstreamRead_frame (e : ReadEvent) (s : State) : (upstreamRead e s).pending = s.pending ∧
    (upstreamRead e s).clock = s.clock ∧ (upstreamRead e s).image = s.image ∧ (upstreamRead e s).loader = s.loader ∧
    (upstreamRead e s).shadow = s.shadow := by
  unfold upstreamRead; (repeat' split) <;> simp

@[simp] theorem readDownstream_frame (o : ReadOwner) (addr : ℕ) (n : ℕ) (s : State) : (readDownstream o addr n
    s).pending = s.pending ∧ (readDownstream o addr n s).admission = s.admission ∧ (readDownstream o addr n
    s).entries = s.entries ∧ (readDownstream o addr n s).links = s.links ∧ (readDownstream o addr n s).game = s.game
    ∧ (readDownstream o addr n s).clock = s.clock ∧ (readDownstream o addr n s).stations = s.stations ∧
    (readDownstream o addr n s).handoff = s.handoff ∧ (readDownstream o addr n s).image = s.image ∧ (readDownstream
    o addr n s).gate = s.gate ∧ (readDownstream o addr n s).events = s.events ∧ (readDownstream o addr n s).loader =
    s.loader ∧ (readDownstream o addr n s).shadow = s.shadow := by
  simp [readDownstream]

@[simp] theorem writeDownstream_frame (addr : ℕ) (beats : List WriteBeat) (s : State) : (writeDownstream addr beats
    s).pending = s.pending ∧ (writeDownstream addr beats s).bus = s.bus ∧ (writeDownstream addr beats s).admission =
    s.admission ∧ (writeDownstream addr beats s).entries = s.entries ∧ (writeDownstream addr beats s).links =
    s.links ∧ (writeDownstream addr beats s).game = s.game ∧ (writeDownstream addr beats s).clock = s.clock ∧
    (writeDownstream addr beats s).stations = s.stations ∧ (writeDownstream addr beats s).handoff = s.handoff ∧
    (writeDownstream addr beats s).image = s.image ∧ (writeDownstream addr beats s).gate = s.gate ∧ (writeDownstream
    addr beats s).events = s.events ∧ (writeDownstream addr beats s).loader = s.loader ∧ (writeDownstream addr beats
    s).shadow = s.shadow := by
  simp [writeDownstream]

@[simp] theorem grantForwarded_frame (s : State) : (grantForwarded s).pending = s.pending ∧ (grantForwarded
    s).admission = s.admission ∧ (grantForwarded s).entries = s.entries ∧ (grantForwarded s).links = s.links ∧
    (grantForwarded s).game = s.game ∧ (grantForwarded s).clock = s.clock ∧ (grantForwarded s).stations = s.stations
    ∧ (grantForwarded s).handoff = s.handoff ∧ (grantForwarded s).image = s.image ∧ (grantForwarded s).gate = s.gate
    ∧ (grantForwarded s).events = s.events ∧ (grantForwarded s).loader = s.loader ∧ (grantForwarded s).shadow =
    s.shadow := by
  unfold grantForwarded; (repeat' split) <;> simp

@[simp] theorem issueNone_frame (addr : ℕ) (s : State) : (issueNone addr s).pending = s.pending ∧ (issueNone addr
    s).out = s.out ∧ (issueNone addr s).admission = s.admission ∧ (issueNone addr s).entries = s.entries ∧
    (issueNone addr s).links = s.links ∧ (issueNone addr s).game = s.game ∧ (issueNone addr s).clock = s.clock ∧
    (issueNone addr s).stations = s.stations ∧ (issueNone addr s).handoff = s.handoff ∧ (issueNone addr s).image =
    s.image ∧ (issueNone addr s).gate = s.gate ∧ (issueNone addr s).events = s.events ∧ (issueNone addr s).loader =
    s.loader ∧ (issueNone addr s).shadow = s.shadow := by
  simp [issueNone]

@[simp] theorem issueNones_frame (addr : ℕ) (n : ℕ) (s : State) : (issueNones addr n s).pending = s.pending ∧
    (issueNones addr n s).out = s.out ∧ (issueNones addr n s).admission = s.admission ∧ (issueNones addr n
    s).entries = s.entries ∧ (issueNones addr n s).links = s.links ∧ (issueNones addr n s).game = s.game ∧
    (issueNones addr n s).clock = s.clock ∧ (issueNones addr n s).stations = s.stations ∧ (issueNones addr n
    s).handoff = s.handoff ∧ (issueNones addr n s).image = s.image ∧ (issueNones addr n s).gate = s.gate ∧
    (issueNones addr n s).events = s.events ∧ (issueNones addr n s).loader = s.loader ∧ (issueNones addr n s).shadow
    = s.shadow := by
  induction n generalizing s with
  | zero => simp [issueNones]
  | succ n ih => simp [issueNones, ih]

@[simp] theorem performOwn_frame (a : OwnAccess) (s : State) : (performOwn a s).pending = s.pending ∧ (performOwn a
    s).admission = s.admission ∧ (performOwn a s).entries = s.entries ∧ (performOwn a s).links = s.links ∧
    (performOwn a s).game = s.game ∧ (performOwn a s).clock = s.clock ∧ (performOwn a s).stations = s.stations ∧
    (performOwn a s).handoff = s.handoff ∧ (performOwn a s).image = s.image ∧ (performOwn a s).gate = s.gate ∧
    (performOwn a s).events = s.events ∧ (performOwn a s).loader = s.loader ∧ (performOwn a s).shadow = s.shadow :=
    by
  unfold performOwn; (repeat' split) <;> simp

@[simp] theorem grantOwn_frame (s : State) : (grantOwn s).pending = s.pending ∧ (grantOwn s).admission = s.admission
    ∧ (grantOwn s).entries = s.entries ∧ (grantOwn s).links = s.links ∧ (grantOwn s).game = s.game ∧ (grantOwn
    s).clock = s.clock ∧ (grantOwn s).stations = s.stations ∧ (grantOwn s).handoff = s.handoff ∧ (grantOwn s).image
    = s.image ∧ (grantOwn s).gate = s.gate ∧ (grantOwn s).events = s.events ∧ (grantOwn s).loader = s.loader ∧
    (grantOwn s).shadow = s.shadow := by
  unfold grantOwn; (repeat' split) <;> simp

@[simp] theorem grantNext_frame (s : State) : (grantNext s).pending = s.pending ∧ (grantNext s).admission =
    s.admission ∧ (grantNext s).entries = s.entries ∧ (grantNext s).links = s.links ∧ (grantNext s).game = s.game ∧
    (grantNext s).clock = s.clock ∧ (grantNext s).stations = s.stations ∧ (grantNext s).handoff = s.handoff ∧
    (grantNext s).image = s.image ∧ (grantNext s).gate = s.gate ∧ (grantNext s).events = s.events ∧ (grantNext
    s).loader = s.loader ∧ (grantNext s).shadow = s.shadow := by
  unfold grantNext; (repeat' split) <;> simp

@[simp] theorem freeWriteEntry_frame (s : State) : (freeWriteEntry s).pending = s.pending ∧ (freeWriteEntry s).out =
    s.out ∧ (freeWriteEntry s).admission = s.admission ∧ (freeWriteEntry s).entries = s.entries ∧ (freeWriteEntry
    s).links = s.links ∧ (freeWriteEntry s).game = s.game ∧ (freeWriteEntry s).clock = s.clock ∧ (freeWriteEntry
    s).stations = s.stations ∧ (freeWriteEntry s).handoff = s.handoff ∧ (freeWriteEntry s).image = s.image ∧
    (freeWriteEntry s).gate = s.gate ∧ (freeWriteEntry s).events = s.events ∧ (freeWriteEntry s).loader = s.loader ∧
    (freeWriteEntry s).shadow = s.shadow := by
  unfold freeWriteEntry; (repeat' split) <;> simp

@[simp] theorem dropOutstanding_frame (s : State) : (dropOutstanding s).pending = s.pending ∧ (dropOutstanding
    s).out = s.out ∧ (dropOutstanding s).admission = s.admission ∧ (dropOutstanding s).entries = s.entries ∧
    (dropOutstanding s).links = s.links ∧ (dropOutstanding s).game = s.game ∧ (dropOutstanding s).clock = s.clock ∧
    (dropOutstanding s).stations = s.stations ∧ (dropOutstanding s).handoff = s.handoff ∧ (dropOutstanding s).image
    = s.image ∧ (dropOutstanding s).gate = s.gate ∧ (dropOutstanding s).events = s.events ∧ (dropOutstanding
    s).loader = s.loader ∧ (dropOutstanding s).shadow = s.shadow := by
  simp [dropOutstanding]

@[simp] theorem failAdmission_frame (l : Link) (slot : ℕ) (s : State) : (failAdmission l slot s).pending = s.pending
    ∧ (failAdmission l slot s).out = s.out ∧ (failAdmission l slot s).admission = s.admission ∧ (failAdmission l
    slot s).entries = s.entries ∧ (failAdmission l slot s).game = s.game ∧ (failAdmission l slot s).clock = s.clock
    ∧ (failAdmission l slot s).stations = s.stations ∧ (failAdmission l slot s).handoff = s.handoff ∧ (failAdmission
    l slot s).image = s.image ∧ (failAdmission l slot s).gate = s.gate ∧ (failAdmission l slot s).shadow = s.shadow
    := by
  simp [failAdmission]

@[simp] theorem admitOrStall_frame (l : Link) (slot : ℕ) (d : List Word) (s : State) : (admitOrStall l slot d
    s).pending = s.pending ∧ (admitOrStall l slot d s).out = s.out ∧ (admitOrStall l slot d s).game = s.game ∧
    (admitOrStall l slot d s).clock = s.clock ∧ (admitOrStall l slot d s).handoff = s.handoff ∧ (admitOrStall l slot
    d s).image = s.image ∧ (admitOrStall l slot d s).gate = s.gate ∧ (admitOrStall l slot d s).loader = s.loader ∧
    (admitOrStall l slot d s).shadow = s.shadow := by
  unfold admitOrStall; (repeat' split) <;> simp

@[simp] theorem admitReturned_frame (l : Link) (slot : ℕ) (d : List Word) (s : State) : (admitReturned l slot d
    s).pending = s.pending ∧ (admitReturned l slot d s).out = s.out ∧ (admitReturned l slot d s).game = s.game ∧
    (admitReturned l slot d s).clock = s.clock ∧ (admitReturned l slot d s).handoff = s.handoff ∧ (admitReturned l
    slot d s).image = s.image ∧ (admitReturned l slot d s).gate = s.gate ∧ (admitReturned l slot d s).shadow =
    s.shadow := by
  unfold admitReturned; (repeat' split) <;> simp

@[simp] theorem returnAdmission_frame (l : Link) (beats : List Beat) (s : State) : (returnAdmission l beats
    s).pending = s.pending ∧ (returnAdmission l beats s).out = s.out ∧ (returnAdmission l beats s).game = s.game ∧
    (returnAdmission l beats s).clock = s.clock ∧ (returnAdmission l beats s).handoff = s.handoff ∧ (returnAdmission
    l beats s).image = s.image ∧ (returnAdmission l beats s).gate = s.gate ∧ (returnAdmission l beats s).shadow =
    s.shadow := by
  unfold returnAdmission; dsimp only; (repeat' split) <;> simp

@[simp] theorem takeReturn_frame (o : ReadOwner) (beats : List Beat) (s : State) : (takeReturn o beats s).pending =
    s.pending ∧ (takeReturn o beats s).clock = s.clock := by
  unfold takeReturn; (repeat' split) <;> simp

@[simp] theorem returnBeats_frame (p : ReadOwner → Bool) (beats : List Beat) (s : State) : (returnBeats p beats
    s).pending = s.pending ∧ (returnBeats p beats s).clock = s.clock := by
  unfold returnBeats; (repeat' split) <;> simp

@[simp] theorem endFill_frame (s : State) : (endFill s).pending = s.pending ∧ (endFill s).out = s.out ∧ (endFill
    s).game = s.game ∧ (endFill s).clock = s.clock ∧ (endFill s).image = s.image ∧ (endFill s).gate = s.gate ∧
    (endFill s).shadow = s.shadow := by
  unfold endFill; dsimp only; (repeat' split) <;> simp

/-! ### Machine/Time.lean -/

@[simp] theorem expireStation_frame (st : StationId) (s : State) : (expireStation st s).pending = s.pending ∧
    (expireStation st s).out = s.out ∧ (expireStation st s).admission = s.admission ∧ (expireStation st s).entries =
    s.entries ∧ (expireStation st s).game = s.game ∧ (expireStation st s).clock = s.clock ∧ (expireStation st
    s).image = s.image ∧ (expireStation st s).loader = s.loader ∧ (expireStation st s).shadow = s.shadow := by
  simp [expireStation]

@[simp] theorem finishMillisecond_frame (s : State) : (finishMillisecond s).pending = s.pending ∧ (finishMillisecond
    s).out = s.out ∧ (finishMillisecond s).image = s.image ∧ (finishMillisecond s).shadow = s.shadow := by
  simp [finishMillisecond]

@[simp] theorem passMillisecond_frame (s : State) : (passMillisecond s).pending = s.pending ∧ (passMillisecond
    s).out = s.out ∧ (passMillisecond s).bus = s.bus ∧ (passMillisecond s).admission = s.admission ∧
    (passMillisecond s).entries = s.entries ∧ (passMillisecond s).game = s.game ∧ (passMillisecond s).stations =
    s.stations ∧ (passMillisecond s).handoff = s.handoff ∧ (passMillisecond s).image = s.image ∧ (passMillisecond
    s).gate = s.gate ∧ (passMillisecond s).events = s.events ∧ (passMillisecond s).loader = s.loader ∧
    (passMillisecond s).shadow = s.shadow := by
  simp [passMillisecond]

end Sys2Proof.Machine
end

