-- ==== Sys2Proof/Laws/LoadSpecs.lean ====
section
/-! SUPPORT. What the checks of a load can answer, said once: the first row of R170's table that has a subject gives
reason and subject. -/

namespace Sys2Proof.Machine

open Sys2Proof

/-! ### Areas by number (R170, 11.3) -/

/-- The area of a number. -/
def areaNo (m : RegionMap) (n : Nat) : Area :=
  let c := m.links.get (linkOf (n / 4))
  if n = 16 then ⟨16, .image, m.imageBase, m.capacity, 1024 * m.capacity, none⟩
  else match n % 4 with
    | 0 => ⟨n, .staging, c.stagingBase, c.stagingSize, 32 * c.stagingSize, some c.stagingStart⟩
    | 1 => ⟨n, .egress, c.egressBase, c.egressSize, 32 * c.egressSize, some c.egressStart⟩
    | _ => ⟨n, .receive, c.receiveBase, c.receiveSize, 32 * c.receiveSize, none⟩

/-- The numbers of the ring areas in the order of the checks. -/
def ringNumbers : List Nat := [0, 1, 2, 4, 5, 6, 8, 9, 10, 12, 13, 14]

/-- The numbers of all areas in the order of the checks. -/
def areaNumbers (m : RegionMap) : List Nat := ringNumbers ++ if m.capacity = 0 then [] else [16]

theorem ringAreas_eq (m : RegionMap) : ringAreas m = ringNumbers.map (areaNo m) := by
  simp [ringAreas, allLinks, linkAreas, areaNo, linkOf, linkNumber, ringNumbers]

theorem allAreas_eq (m : RegionMap) : allAreas m = (areaNumbers m).map (areaNo m) := by
  unfold allAreas areaNumbers
  rw [ringAreas_eq]
  by_cases h : m.capacity = 0 <;> simp [imageAreas, h, areaNo]

theorem isRing_iff (n : Nat) : IsRing n ↔ n ∈ ringNumbers := by
  simp only [IsRing, ringNumbers, List.mem_cons, List.not_mem_nil, or_false]
  omega

theorem isArea_iff (m : RegionMap) (n : Nat) : IsArea m n ↔ n ∈ areaNumbers m := by
  unfold IsArea areaNumbers
  rw [isRing_iff]
  by_cases h : m.capacity = 0 <;> simp [h]

theorem areaNumbers_rising (m : RegionMap) : (areaNumbers m).Pairwise (· < ·) := by
  unfold areaNumbers
  split <;> decide

@[simp] theorem areaNo_number (m : RegionMap) (n : Nat) : (areaNo m n).number = n := by
  unfold areaNo
  simp only
  split
  · simp_all
  · split <;> rfl

@[simp] theorem areaNo_base (m : RegionMap) (n : Nat) : (areaNo m n).base = areaBase m n := by
  unfold areaNo areaBase
  simp only
  split
  · rfl
  · split <;> simp_all

@[simp] theorem areaNo_bytes (m : RegionMap) (n : Nat) : (areaNo m n).bytes = areaBytes m n := by
  unfold areaNo areaBytes areaSlots
  simp only
  split
  · rfl
  · split <;> simp_all

/-! ### The first area that fails -/

theorem FirstArea.congr {P Q : Nat → Prop} (h : ∀ n, P n ↔ Q n) (n : Nat) : FirstArea P n ↔ FirstArea Q n := by
  simp [FirstArea, h]

theorem find_area {ns : List Nat} (hs : ns.Pairwise (· < ·)) (m : RegionMap) (p : Area → Bool) (n : Nat) :
    ((ns.map (areaNo m)).find? p).map Area.number = some n ↔
      FirstArea (fun n => n ∈ ns ∧ p (areaNo m n) = true) n := by
  induction ns with
  | nil => simp [FirstArea]
  | cons a ns ih =>
    obtain ⟨h1, h2⟩ := List.pairwise_cons.mp hs
    by_cases h : p (areaNo m a) = true
    · simp only [List.map_cons, List.find?_cons, h, Option.map_some, areaNo_number, Option.some.injEq]
      constructor
      · rintro rfl
        refine ⟨⟨by simp, h⟩, fun k hk => ?_⟩
        rcases List.mem_cons.mp hk.1 with rfl | hk
        exacts [Nat.le_refl _, Nat.le_of_lt (h1 _ hk)]
      · rintro ⟨⟨h3, h4⟩, h5⟩
        rcases List.mem_cons.mp h3 with rfl | h3
        · rfl
        · have := h5 a ⟨by simp, h⟩
          have := h1 _ h3
          omega
    · have h := Bool.eq_false_iff.mpr h
      simp only [List.map_cons, List.find?_cons, h]
      rw [ih h2]
      refine FirstArea.congr (fun k => ⟨fun h3 => ⟨List.mem_cons_of_mem _ h3.1, h3.2⟩, fun h3 => ?_⟩) n
      rcases List.mem_cons.mp h3.1 with rfl | h4
      · rw [h] at h3; exact absurd h3.2 (by simp)
      · exact ⟨h4, h3.2⟩

/-! ### The first pair that meets -/

/-- Two numbers of a list whose areas meet, the first the lower. -/
def MeetIn (ns : List Nat) (m : RegionMap) (a n : Nat) : Prop :=
  a ∈ ns ∧ n ∈ ns ∧ a < n ∧ spansMeet (areaBase m a) (areaBytes m a) (areaBase m n) (areaBytes m n) = true

theorem firstPair_area {ns : List Nat} (hs : ns.Pairwise (· < ·)) (m : RegionMap) (n : Nat) :
    firstPair (ns.map (areaNo m)) = some n ↔
      ∃ a, MeetIn ns m a n ∧ ∀ b k, MeetIn ns m b k → a < b ∨ (a = b ∧ n ≤ k) := by
  induction ns with
  | nil => simp [firstPair, MeetIn]
  | cons a ns ih =>
    obtain ⟨h1, h2⟩ := List.pairwise_cons.mp hs
    simp only [List.map_cons, firstPair, firstMeeting]
    have hf := find_area h2 m (fun x => spansMeet (areaNo m a).base (areaNo m a).bytes x.base x.bytes)
    simp only [areaNo_base, areaNo_bytes] at hf ⊢
    cases hc : Option.map Area.number (List.find? (fun x => spansMeet (areaBase m a) (areaBytes m a) x.base x.bytes)
        (List.map (areaNo m) ns)) with
    | some k =>
      simp only [Option.some.injEq]
      obtain ⟨⟨h3, h4⟩, h5⟩ := (hf k).mp hc
      constructor
      · rintro rfl
        refine ⟨a, ⟨by simp, List.mem_cons_of_mem _ h3, h1 _ h3, h4⟩, ?_⟩
        rintro b j ⟨hb, hj, hbj, hm⟩
        rcases List.mem_cons.mp hb with rfl | hb
        · rcases List.mem_cons.mp hj with rfl | hj
          · omega
          · exact .inr ⟨rfl, h5 j ⟨hj, hm⟩⟩
        · exact .inl (h1 _ hb)
      · rintro ⟨b, ⟨hb, hn, hbn, hm⟩, h6⟩
        have := h6 a k ⟨by simp, List.mem_cons_of_mem _ h3, h1 _ h3, h4⟩
        rcases List.mem_cons.mp hb with rfl | hb
        · rcases List.mem_cons.mp hn with rfl | hn
          · omega
          · have := h5 n ⟨hn, hm⟩
            omega
        · have := h1 _ hb
          omega
    | none =>
      simp only
      rw [ih h2]
      have hno : ∀ k ∈ ns, ¬ spansMeet (areaBase m a) (areaBytes m a) (areaBase m k) (areaBytes m k) = true := by
        intro k hk hm
        simp only [Option.map_eq_none_iff, List.find?_eq_none, List.mem_map, forall_exists_index, and_imp,
          forall_apply_eq_imp_iff₂, areaNo_base, areaNo_bytes] at hc
        exact hc k hk hm
      have e : ∀ b k, MeetIn (a :: ns) m b k ↔ MeetIn ns m b k := by
        refine fun b k => ⟨?_, fun h => ⟨List.mem_cons_of_mem _ h.1, List.mem_cons_of_mem _ h.2.1, h.2.2⟩⟩
        rintro ⟨hb, hk, hbk, hm⟩
        rcases List.mem_cons.mp hb with rfl | hb
        · rcases List.mem_cons.mp hk with rfl | hk
          · omega
          · exact absurd hm (hno k hk)
        · rcases List.mem_cons.mp hk with rfl | hk
          · have := h1 b (by assumption)
            omega
          · exact ⟨hb, hk, hbk, hm⟩
      simp only [e]

theorem spansMeet_iff {b1 n1 b2 n2 : Nat} (h1 : 0 < n1) (h2 : 0 < n2) :
    spansMeet b1 n1 b2 n2 = true ↔ ShareByte b1 n1 b2 n2 := by
  simp only [spansMeet, Bool.and_eq_true, decide_eq_true_eq, ShareByte]
  constructor
  · rintro ⟨h3, h4⟩
    exact ⟨max b1 b2, by omega⟩
  · rintro ⟨a, h⟩
    omega

/-! ### The tests of the rows -/

theorem ringSizeOk_iff (m : RegionMap) {n : Nat} (hn : IsRing n) : ringSizeOk (areaNo m n) = false ↔
    ¬ ∃ k, 4 ≤ k ∧ k ≤ (if n % 4 = 1 then 8 else 10) ∧ areaSlots m n = 2 ^ k := by
  have h16 : n ≠ 16 := by unfold IsRing at hn; omega
  have hp : ∀ x, (∃ k, 4 ≤ k ∧ k ≤ 8 ∧ x = 2 ^ k) ↔ x ∈ [16, 32, 64, 128, 256] := by
    intro x
    constructor
    · rintro ⟨k, h1, h2, rfl⟩
      interval_cases k <;> simp
    · intro h
      simp only [List.mem_cons, List.not_mem_nil, or_false] at h
      rcases h with rfl | rfl | rfl | rfl | rfl
      exacts [⟨4, by simp⟩, ⟨5, by simp⟩, ⟨6, by simp⟩, ⟨7, by simp⟩, ⟨8, by simp⟩]
  have hq : ∀ x, (∃ k, 4 ≤ k ∧ k ≤ 10 ∧ x = 2 ^ k) ↔ x ∈ [16, 32, 64, 128, 256, 512, 1024] := by
    intro x
    constructor
    · rintro ⟨k, h1, h2, rfl⟩
      interval_cases k <;> simp
    · intro h
      simp only [List.mem_cons, List.not_mem_nil, or_false] at h
      rcases h with rfl | rfl | rfl | rfl | rfl | rfl | rfl
      exacts [⟨4, by simp⟩, ⟨5, by simp⟩, ⟨6, by simp⟩, ⟨7, by simp⟩, ⟨8, by simp⟩, ⟨9, by simp⟩, ⟨10, by simp⟩]
  have hm : n % 4 = 0 ∨ n % 4 = 1 ∨ n % 4 = 2 := by unfold IsRing at hn; omega
  rcases hm with h | h | h
  · simp only [areaNo, h16, if_false, h, ringSizeOk, areaSlots, show ¬ (0 = 1) by omega, hq]; simp
  · simp only [areaNo, h16, if_false, h, ringSizeOk, areaSlots, if_true, hp]; simp
  · simp only [areaNo, h16, if_false, h, ringSizeOk, areaSlots, show ¬ (2 = 1) by omega, hq]; simp

theorem startOk_iff (m : RegionMap) {n : Nat} (hn : IsRing n) :
    startOk (areaNo m n) = false ↔ n % 4 ≠ 2 ∧ areaSlots m n ≤ areaStart m n := by
  have h16 : n ≠ 16 := by unfold IsRing at hn; omega
  have hm : n % 4 = 0 ∨ n % 4 = 1 ∨ n % 4 = 2 := by unfold IsRing at hn; omega
  rcases hm with h | h | h <;> simp [areaNo, h16, h, startOk, areaSlots, areaStart]

/-! ### The table -/

/-- The first row with a subject, of rows that agree one by one. -/
theorem firstFailure_rows {cs : List (LoadReason × Option Nat)} {tab : List (LoadReason × (Nat → Prop))}
    (h : List.Forall₂ (fun c t => c.1 = t.1 ∧ ∀ n, c.2 = some n ↔ t.2 n) cs tab) :
    (∀ r n, firstFailure cs = some (r, n) ↔ ∃ pre subject post,
      tab = pre ++ (r, subject) :: post ∧ subject n ∧ ∀ c ∈ pre, ∀ k, ¬ c.2 k) ∧
    (firstFailure cs = none ↔ ∀ c ∈ tab, ∀ k, ¬ c.2 k) := by
  induction h with
  | nil => simp [firstFailure]
  | @cons c t cs tab hct _ ih =>
    obtain ⟨r0, o⟩ := c
    obtain ⟨r1, S⟩ := t
    obtain ⟨rfl, hS⟩ := hct
    simp only at hS
    cases o with
    | some k =>
      have hk : S k := (hS k).mp rfl
      simp only [firstFailure, Option.some.injEq, Prod.mk.injEq, reduceCtorEq, false_iff]
      refine ⟨fun r n => ⟨?_, ?_⟩, fun h => h (r0, S) (by simp) k hk⟩
      · rintro ⟨rfl, rfl⟩
        exact ⟨[], S, tab, rfl, hk, by simp⟩
      · rintro ⟨pre, S', post, he, hs, hp⟩
        cases pre with
        | nil =>
          simp only [List.nil_append, List.cons.injEq, Prod.mk.injEq] at he
          obtain ⟨⟨rfl, rfl⟩, -⟩ := he
          exact ⟨rfl, by simpa using (hS n).mpr hs⟩
        | cons a pre =>
          simp only [List.cons_append, List.cons.injEq] at he
          obtain ⟨rfl, -⟩ := he
          exact absurd hk (hp (r0, S) (by simp) k)
    | none =>
      have hno : ∀ k, ¬ S k := fun k hk => by simpa using (hS k).mpr hk
      simp only [firstFailure, ih.1, ih.2]
      refine ⟨fun r n => ⟨?_, ?_⟩, fun h c hc => ?_, fun h c hc => h c (List.mem_cons_of_mem _ hc)⟩
      · rintro ⟨pre, S', post, rfl, hs, hp⟩
        refine ⟨(r0, S) :: pre, S', post, rfl, hs, fun c hc => ?_⟩
        rcases List.mem_cons.mp hc with rfl | hc
        exacts [hno, hp c hc]
      · rintro ⟨pre, S', post, he, hs, hp⟩
        cases pre with
        | nil =>
          simp only [List.nil_append, List.cons.injEq, Prod.mk.injEq] at he
          obtain ⟨⟨rfl, rfl⟩, -⟩ := he
          exact absurd hs (hno n)
        | cons a pre =>
          simp only [List.cons_append, List.cons.injEq] at he
          exact ⟨pre, S', post, he.2, hs, fun c hc => hp c (List.mem_cons_of_mem _ hc)⟩
      · rcases List.mem_cons.mp hc with rfl | hc
        exacts [hno, h c hc]

theorem firstFailing_ring (m : RegionMap) (ok : Area → Bool) (n : Nat) :
    firstFailing ok (ringAreas m) = some n ↔ FirstArea (fun n => IsRing n ∧ ok (areaNo m n) = false) n := by
  rw [firstFailing, ringAreas_eq, find_area (by decide)]
  exact FirstArea.congr (fun k => by rw [isRing_iff]; simp) n

theorem find_allAreas (m : RegionMap) (p : Area → Bool) (n : Nat) :
    ((allAreas m).find? p).map Area.number = some n ↔ FirstArea (fun n => IsArea m n ∧ p (areaNo m n) = true) n := by
  rw [allAreas_eq, find_area (areaNumbers_rising m)]
  exact FirstArea.congr (fun k => by rw [isArea_iff]) n

/-- The row of RING_SIZE. -/
theorem ringSize_row (m : RegionMap) (n : Nat) : firstFailing ringSizeOk (ringAreas m) = some n ↔
    FirstArea (fun n => IsRing n ∧
      ¬ ∃ k, 4 ≤ k ∧ k ≤ (if n % 4 = 1 then 8 else 10) ∧ areaSlots m n = 2 ^ k) n := by
  rw [firstFailing_ring]
  exact FirstArea.congr (fun k => and_congr_right (ringSizeOk_iff m)) n

/-- Behind the first row every area has bytes. -/
theorem areaBytes_pos {m : RegionMap} (h : firstFailing ringSizeOk (ringAreas m) = none) {n : Nat} (hn : IsArea m n) :
    0 < areaBytes m n := by
  have hsl : IsRing n → 0 < areaSlots m n := by
    intro hn
    by_contra h0
    have hbad : ∃ n, IsRing n ∧ ¬ ∃ k, 4 ≤ k ∧ k ≤ (if n % 4 = 1 then 8 else 10) ∧ areaSlots m n = 2 ^ k := by
      refine ⟨n, hn, ?_⟩
      rintro ⟨k, -, -, h⟩
      have := Nat.two_pow_pos k
      omega
    classical
    have := (ringSize_row m (Nat.find hbad)).mpr ⟨Nat.find_spec hbad, fun k hk => Nat.find_min' hbad hk⟩
    simp [h] at this
  unfold areaBytes
  rcases hn with hn | ⟨rfl, hn⟩
  · have := hsl hn
    split <;> (unfold IsRing at hn; omega)
  · rw [if_pos rfl]; omega

/-- The checks one by one, OVERLAP in its two parts. -/
theorem checkFailure_rows (policy : Nat) (m : RegionMap) : checkFailure policy m = firstFailure
    [ (.ringSize, firstFailing ringSizeOk (ringAreas m)),
      (.imageSize, if 4096 < m.capacity then some 16 else none),
      (.ringAlign, firstFailing (fun a => decide (a.base % a.bytes = 0)) (ringAreas m)),
      (.imageAlign, firstFailing (fun a => decide (a.base % 1024 = 0)) (imageAreas m)),
      (.startSlot, firstFailing startOk (ringAreas m)),
      (.range, firstFailing rangeOk (allAreas m)),
      (.overlap, firstMeeting policy Config.policyBytes (allAreas m)),
      (.overlap, firstPair (allAreas m)) ] := by
  unfold checkFailure loadChecks overlapSubject
  generalize firstFailing ringSizeOk (ringAreas m) = o1
  generalize (if 4096 < m.capacity then some 16 else none) = o2
  generalize firstFailing (fun a => decide (a.base % a.bytes = 0)) (ringAreas m) = o3
  generalize firstFailing (fun a => decide (a.base % 1024 = 0)) (imageAreas m) = o4
  generalize firstFailing startOk (ringAreas m) = o5
  generalize firstFailing rangeOk (allAreas m) = o6
  generalize firstMeeting policy Config.policyBytes (allAreas m) = o7
  cases o1 <;> cases o2 <;> cases o3 <;> cases o4 <;> cases o5 <;> cases o6 <;> cases o7 <;> rfl

/-- Behind the first row, each check has a subject exactly where the table gives it one. -/
theorem rows_agree (policy : Nat) {m : RegionMap} (hsz : firstFailing ringSizeOk (ringAreas m) = none) :
    List.Forall₂ (fun c t => c.1 = t.1 ∧ ∀ n, c.2 = some n ↔ t.2 n)
    [ (.ringSize, firstFailing ringSizeOk (ringAreas m)),
      (.imageSize, if 4096 < m.capacity then some 16 else none),
      (.ringAlign, firstFailing (fun a => decide (a.base % a.bytes = 0)) (ringAreas m)),
      (.imageAlign, firstFailing (fun a => decide (a.base % 1024 = 0)) (imageAreas m)),
      (.startSlot, firstFailing startOk (ringAreas m)),
      (.range, firstFailing rangeOk (allAreas m)),
      (.overlap, firstMeeting policy Config.policyBytes (allAreas m)),
      (.overlap, firstPair (allAreas m)) ] (loadTable policy m) := by
  have hb : ∀ n, IsArea m n → 0 < areaBytes m n := fun n => areaBytes_pos hsz
  unfold loadTable
  refine .cons ⟨rfl, ringSize_row m⟩ (.cons ⟨rfl, ?_⟩ (.cons ⟨rfl, ?_⟩ (.cons ⟨rfl, ?_⟩ (.cons ⟨rfl, ?_⟩
    (.cons ⟨rfl, ?_⟩ (.cons ⟨rfl, ?_⟩ (.cons ⟨rfl, ?_⟩ .nil)))))))
  · intro n
    by_cases h : 4096 < m.capacity <;> simp [h]
    exact ⟨Eq.symm, Eq.symm⟩
  · intro n
    simp only [firstFailing_ring]
    exact FirstArea.congr (fun k => by simp) n
  · intro n
    by_cases h : m.capacity = 0
    · simp [imageAreas, h, firstFailing]
    · by_cases h2 : m.imageBase % 1024 = 0 <;> simp [imageAreas, h, firstFailing, h2]
      exact ⟨Eq.symm, Eq.symm⟩
  · intro n
    simp only [firstFailing_ring]
    exact FirstArea.congr (fun k => and_congr_right (startOk_iff m)) n
  · intro n
    simp only [firstFailing, find_allAreas]
    refine FirstArea.congr (fun k => and_congr_right fun hk => ?_) n
    simp only [rangeOk, areaNo_base, areaNo_bytes, Config.lastAddress, Bool.not_eq_true', decide_eq_false_iff_not]
    omega
  · intro n
    simp only [firstMeeting, find_allAreas]
    refine FirstArea.congr (fun k => and_congr_right fun hk => ?_) n
    simp only [areaNo_base, areaNo_bytes]
    exact spansMeet_iff (by decide) (hb k hk)
  · intro n
    have e : ∀ a k, MeetIn (areaNumbers m) m a k ↔ PairMeets m a k := by
      intro a k
      unfold MeetIn
      rw [← isArea_iff, ← isArea_iff]
      constructor
      · rintro ⟨ha, hk, hl, hm⟩
        exact ⟨hl, ha, hk, (spansMeet_iff (hb a ha) (hb k hk)).mp hm⟩
      · rintro ⟨hl, ha, hk, hm⟩
        exact ⟨ha, hk, hl, (spansMeet_iff (hb a ha) (hb k hk)).mpr hm⟩
    simp only [allAreas_eq, firstPair_area (areaNumbers_rising m), e]

/-- Where the first row has a subject the checks answer it. -/
theorem checkFailure_ringSize (policy : Nat) {m : RegionMap} {k : Nat}
    (h : firstFailing ringSizeOk (ringAreas m) = some k) : checkFailure policy m = some (.ringSize, k) := by
  simp [checkFailure, loadChecks, h, firstFailure]

end Sys2Proof.Machine
end

