-- ==== Sys2Proof/Laws/Table.lean ====
section
/-! SUPPORT. Sparse tables: a read after a write gives the value written under its key and the old value elsewhere, a
write keeps the canonical form, and two tables in canonical form that read alike are one. -/

namespace Sys2Proof.Machine

open Sys2Proof

variable {α : Type}

theorem Table.find_insert (k j : Nat) (v : α) (m : Table α) :
    Table.find (Table.insert k v m) j = if j = k then some v else Table.find m j := by
  induction m with
  | nil => simp [Table.insert, Table.find, eq_comm]
  | cons c m ih =>
    obtain ⟨i, u⟩ := c
    unfold Table.insert
    split
    · simp [Table.find, eq_comm]
    · split
      · rename_i h; subst h
        simp only [Table.find]
        by_cases hj : i = j
        · simp [hj]
        · simp [hj, Ne.symm hj]
      · simp only [Table.find, ih]
        by_cases hj : i = j
        · subst hj; rename_i h; simp [h]
        · simp [hj]

theorem Table.find_erase (k j : Nat) (m : Table α) :
    Table.find (Table.erase k m) j = if j = k then none else Table.find m j := by
  induction m with
  | nil => simp [Table.erase, Table.find]
  | cons c m ih =>
    obtain ⟨i, u⟩ := c
    simp only [Table.erase, List.filter_cons, Table.find] at ih ⊢
    by_cases h : i = k
    · subst h; simp only [ne_eq, not_true_eq_false, decide_false, Bool.false_eq_true, ↓reduceIte, ih]
      by_cases hj : j = i
      · simp [hj]
      · simp [hj, Ne.symm hj]
    · simp only [ne_eq, h, not_false_eq_true, decide_true, ↓reduceIte, Table.find, ih]
      by_cases hj : i = j
      · subst hj; simp [h]
      · simp [hj]

/-- A read after a write: the value written under its key, the old value under every other. -/
theorem Table.read_write [DecidableEq α] (d : α) (m : Table α) (k j : Nat) (v : α) :
    Table.read d (Table.write d m k v) j = if j = k then v else Table.read d m j := by
  unfold Table.read Table.write
  split
  · rw [Table.find_erase]; split <;> simp_all
  · rw [Table.find_insert]; split <;> simp

@[simp] theorem Table.read_write_same [DecidableEq α] (d : α) (m : Table α) (k : Nat) (v : α) :
    Table.read d (Table.write d m k v) k = v := by
  simp [Table.read_write]

theorem Table.read_write_other [DecidableEq α] (d : α) (m : Table α) {k j : Nat} (v : α) (h : j ≠ k) :
    Table.read d (Table.write d m k v) j = Table.read d m j := by
  simp [Table.read_write, h]

theorem Table.mem_insert {k : Nat} {v : α} {m : Table α} {c : Nat × α} (h : c ∈ Table.insert k v m) :
    c = (k, v) ∨ c ∈ m := by
  induction m with
  | nil => simpa [Table.insert] using h
  | cons e m ih =>
    obtain ⟨i, u⟩ := e
    unfold Table.insert at h
    split at h
    · simpa using h
    · split at h
      · rcases List.mem_cons.mp h with h | h
        · exact .inl h
        · exact .inr (List.mem_cons_of_mem _ h)
      · rcases List.mem_cons.mp h with h | h
        · exact .inr (h ▸ List.mem_cons_self)
        · exact (ih h).imp id (List.mem_cons_of_mem _)

theorem Table.insert_rising (k : Nat) (v : α) {m : Table α} (h : m.Pairwise (fun a b => a.1 < b.1)) :
    (Table.insert k v m).Pairwise (fun a b => a.1 < b.1) := by
  induction m with
  | nil => simp [Table.insert]
  | cons e m ih =>
    obtain ⟨i, u⟩ := e
    have hm := List.pairwise_cons.mp h
    unfold Table.insert
    split
    · rename_i hk
      refine List.pairwise_cons.mpr ⟨fun c hc => ?_, h⟩
      rcases List.mem_cons.mp hc with hc | hc
      · subst hc; exact hk
      · exact lt_trans hk (hm.1 c hc)
    · split
      · rename_i hk
        exact List.pairwise_cons.mpr ⟨fun c hc => hk ▸ hm.1 c hc, hm.2⟩
      · refine List.pairwise_cons.mpr ⟨fun c hc => ?_, ih hm.2⟩
        rcases Table.mem_insert hc with hc | hc
        · subst hc; simp only; omega
        · exact hm.1 c hc

theorem Table.insert_wf {d : α} (k : Nat) {v : α} (hv : v ≠ d) {m : Table α} (h : Table.wf d m) :
    Table.wf d (Table.insert k v m) :=
  ⟨Table.insert_rising k v h.1, fun c hc => by
    rcases Table.mem_insert hc with hc | hc
    · subst hc; exact hv
    · exact h.2 c hc⟩

theorem Table.filter_wf {d : α} (p : Nat × α → Bool) {m : Table α} (h : Table.wf d m) :
    Table.wf d (m.filter p) :=
  ⟨h.1.filter p, fun c hc => h.2 c (List.mem_of_mem_filter hc)⟩

theorem Table.erase_wf {d : α} (k : Nat) {m : Table α} (h : Table.wf d m) : Table.wf d (Table.erase k m) :=
  Table.filter_wf _ h

/-- A write keeps the canonical form. -/
theorem Table.write_wf [DecidableEq α] {d : α} (k : Nat) (v : α) {m : Table α} (h : Table.wf d m) :
    Table.wf d (Table.write d m k v) := by
  unfold Table.write
  split
  · exact Table.erase_wf k h
  · rename_i hv; exact Table.insert_wf k hv h

theorem Table.nil_wf (d : α) : Table.wf d ([] : Table α) := ⟨List.Pairwise.nil, fun _ h => absurd h List.not_mem_nil⟩

theorem Table.find_none_of_lt {m : Table α} {k : Nat} (h : ∀ c ∈ m, k < c.1) : Table.find m k = none := by
  induction m with
  | nil => rfl
  | cons c m ih =>
    obtain ⟨i, u⟩ := c
    have hi : k < i := h (i, u) List.mem_cons_self
    have hne : i ≠ k := by omega
    simp only [Table.find, hne, ↓reduceIte]
    exact ih (fun c hc => h c (List.mem_cons_of_mem _ hc))

theorem Table.find_of_mem {m : Table α} (h : m.Pairwise (fun a b => a.1 < b.1)) {c : Nat × α} (hc : c ∈ m) :
    Table.find m c.1 = some c.2 := by
  induction m with
  | nil => exact absurd hc List.not_mem_nil
  | cons e m ih =>
    obtain ⟨i, u⟩ := e
    have hm := List.pairwise_cons.mp h
    rcases List.mem_cons.mp hc with hc | hc
    · subst hc; simp [Table.find]
    · have hne : i ≠ c.1 := by have := hm.1 c hc; simp only at this; omega
      simp only [Table.find, hne, ↓reduceIte]
      exact ih hm.2 hc

/-! ### Entries, stations and shadows of a state -/

@[simp] theorem State.entry_setEntry_same (s : State) (i : Nat) (e : Entry) : (s.setEntry i e).entry i = e := by
  simp [State.entry, State.setEntry]

theorem State.entry_setEntry (s : State) (i j : Nat) (e : Entry) :
    (s.setEntry i e).entry j = if j = i then e else s.entry j := by
  simp [State.entry, State.setEntry, Table.read_write]

@[simp] theorem State.station_setStation_same (s : State) (st : StationId) (x : Station) :
    (s.setStation st x).station st = x := by
  simp [State.station, State.setStation]

theorem State.station_setStation (s : State) (st t : StationId) (x : Station) :
    (s.setStation st x).station t = if t = st then x else s.station t := by
  simp [State.station, State.setStation, Table.read_write, Fin.val_inj]

end Sys2Proof.Machine
end

