-- ==== Sys2Proof/Laws/PoolSpecs.lean ====
section
/-! SUPPORT. What each operation on the entry pool, the class queues and the hold lists can do, said once (R2, R3, R5,
R7, R18, R22, R103, R114, R118). -/

namespace Sys2Proof.Machine

open Sys2Proof

/-! ### The order of stamps (R7) -/

theorem olderEntry_irrefl (s : State) (i : Nat) : olderEntry s i i = false := by simp [olderEntry]

theorem olderEntry_total {s : State} {i j : Nat} (h : olderEntry s i j = false) (hij : i ≠ j) :
    olderEntry s j i = true := by
  simp only [olderEntry, Bool.or_eq_false_iff, Bool.and_eq_false_imp, decide_eq_false_iff_not, Bool.or_eq_true,
    Bool.and_eq_true, decide_eq_true_eq] at *
  omega

theorem olderEntry_trans {s : State} {i j k : Nat} (h : olderEntry s i j = true) (h2 : olderEntry s j k = true) :
    olderEntry s i k = true := by
  simp only [olderEntry, Bool.or_eq_true, Bool.and_eq_true, decide_eq_true_eq] at *
  omega

/-! ### Hold lists (R5, R103) -/

/-- The new entry stands right behind the last older one: every entry behind it is not older. -/
theorem insertByStamp_split (s : State) (i : Nat) (q : List Nat) :
    ∃ pre post, q = pre ++ post ∧ insertByStamp s i q = pre ++ i :: post ∧
      (∀ j ∈ pre.getLast?, olderEntry s j i = true) ∧ ∀ j ∈ post, olderEntry s j i = false := by
  induction q with
  | nil => exact ⟨[], [], rfl, rfl, by simp, by simp⟩
  | cons j q ih =>
    cases h : (j :: q).any (fun k => olderEntry s k i) with
    | false => exact ⟨[], j :: q, rfl, by simp only [insertByStamp, h]; rfl, by simp, by simpa using h⟩
    | true =>
      obtain ⟨pre, post, rfl, hi, hp, hh⟩ := ih
      refine ⟨j :: pre, post, rfl, by simp only [insertByStamp, h, hi]; rfl, fun k hk => ?_, hh⟩
      cases pre with
      | cons a pre => exact hp k (by simpa using hk)
      | nil =>
        obtain rfl : j = k := by simpa using hk
        obtain ⟨a, ha, hao⟩ := List.any_eq_true.mp h
        rcases List.mem_cons.mp ha with rfl | ha
        exacts [hao, absurd hao (by simp [hh a ha])]

/-- In a list in stamp order whose last entry is older, every entry is. -/
theorem older_before {s : State} {i : Nat} {pre : List Nat} (h : ∀ j ∈ pre.getLast?, olderEntry s j i = true)
    (hs : pre.Pairwise (fun a b => olderEntry s a b = true)) : ∀ j ∈ pre, olderEntry s j i = true := by
  induction pre with
  | nil => simp
  | cons a pre ih =>
    obtain ⟨ha, hs⟩ := List.pairwise_cons.mp hs
    cases pre with
    | nil => simpa using h
    | cons b pre =>
      have ih := ih (by simpa using h) hs
      intro j hj
      rcases List.mem_cons.mp hj with rfl | hj
      exacts [olderEntry_trans (ha b (by simp)) (ih b (by simp)), ih j hj]

/-- The oldest of a list stands in it, and every other entry of it is newer. -/
theorem oldestOf_spec {s : State} {ps : List (Link × Cls × Nat)} {p : Link × Cls × Nat} (h : oldestOf s ps = some p) :
    p ∈ ps ∧ ∀ q ∈ ps, q.2.2 ≠ p.2.2 → olderEntry s p.2.2 q.2.2 = true := by
  induction ps generalizing p with
  | nil => exact absurd h (by simp [oldestOf])
  | cons a ps ih =>
    unfold oldestOf at h
    split at h
    · rename_i hn
      obtain rfl := Option.some.inj h
      cases ps with
      | nil => simp
      | cons b ps =>
        unfold oldestOf at hn
        split at hn <;> (try split at hn) <;> exact absurd hn (by simp)
    · rename_i b hb
      obtain ⟨h1, h2⟩ := ih hb
      split at h <;> rename_i hba <;> obtain rfl := Option.some.inj h
      · refine ⟨List.mem_cons_of_mem _ h1, fun q hq hne => ?_⟩
        rcases List.mem_cons.mp hq with rfl | hq
        · exact hba
        · exact h2 q hq hne
      · refine ⟨List.mem_cons_self, fun q hq hne => ?_⟩
        rcases List.mem_cons.mp hq with rfl | hq
        · exact absurd rfl hne
        · have hab := Bool.eq_false_iff.mpr hba
          by_cases hqb : q.2.2 = b.2.2
          · rw [hqb]; exact olderEntry_total hab (hqb ▸ hne)
          · have h3 := h2 q hq hqb
            by_cases he : b.2.2 = a.2.2
            · rw [← he]; exact h3
            · exact olderEntry_trans (olderEntry_total hab he) h3

theorem oldestOf_none {s : State} {ps : List (Link × Cls × Nat)} : oldestOf s ps = none ↔ ps = [] := by
  cases ps with
  | nil => simp [oldestOf]
  | cons a ps =>
    simp only [oldestOf, reduceCtorEq, iff_false]
    split <;> (try split) <;> simp

/-- The newest of a list stands in it, and every other entry of it is older. -/
theorem newestHeld_spec {s : State} {q : List Nat} {j : Nat} (h : newestHeld s q = some j) :
    j ∈ q ∧ ∀ k ∈ q, k ≠ j → olderEntry s k j = true := by
  induction q generalizing j with
  | nil => exact absurd h (by simp [newestHeld])
  | cons a q ih =>
    unfold newestHeld at h
    split at h
    · rename_i hn
      obtain rfl := Option.some.inj h
      cases q with
      | nil => simp
      | cons b q =>
        unfold newestHeld at hn
        split at hn <;> (try split at hn) <;> exact absurd hn (by simp)
    · rename_i b hb
      obtain ⟨h1, h2⟩ := ih hb
      split at h <;> rename_i hab <;> obtain rfl := Option.some.inj h
      · refine ⟨List.mem_cons_of_mem _ h1, fun k hk hne => ?_⟩
        rcases List.mem_cons.mp hk with rfl | hk
        · exact hab
        · exact h2 k hk hne
      · refine ⟨List.mem_cons_self, fun k hk hne => ?_⟩
        rcases List.mem_cons.mp hk with rfl | hk
        · exact absurd rfl hne
        · have hf := Bool.eq_false_iff.mpr hab
          by_cases hkb : k = b
          · rw [hkb]; exact olderEntry_total hf (hkb ▸ hne.symm)
          · have h3 := h2 k hk hkb
            by_cases he : b = a
            · rw [← he]; exact h3
            · exact olderEntry_trans h3 (olderEntry_total hf (Ne.symm he))

theorem newestHeld_none {s : State} {q : List Nat} : newestHeld s q = none ↔ q = [] := by
  cases q with
  | nil => simp [newestHeld]
  | cons a q =>
    simp only [newestHeld, reduceCtorEq, iff_false]
    split <;> (try split) <;> simp

/-- The candidates of a sweep (R103). -/
theorem mem_queuedWhere {s : State} {p : Entry → Bool} {l : Link} {c : Cls} {i : Nat} :
    (l, c, i) ∈ queuedWhere s p ↔ i ∈ s.queue l c ∧ p (s.entry i) = true := by
  cases l <;> cases c <;> simp [queuedWhere, allLinks, allClasses]

/-! ### Class queues (R3, R114) -/

/-- Behind the entry a point follows, where that stands in the queue. -/
theorem insertAfter_split {i j : Nat} {pre post : List Nat} (h : j ∉ pre) :
    insertAfter i (some j) (pre ++ j :: post) = pre ++ j :: i :: post := by
  induction pre with
  | nil => simp [insertAfter]
  | cons k pre ih =>
    have hk : k ≠ j := fun e => h (by simp [e])
    simp [insertAfter, hk, ih (fun hm => h (by simp [hm]))]

/-- The count of queued direct entries changes, and the low-water mark is compared in ACTIVE mode (R22). -/
theorem setDirectQueued_spec (l : Link) (n : Nat) (v : State) :
    let k := v.link l
    let mark := min 1024 (bits (shadowWord v (0x100 + 4 * linkNumber l)) 0 16)
    let counted (b : Bool) : State := v.setLink l { k with directQueued := n, lowArmed := b }
    let t := setDirectQueued l n v
    (v.loader.mode = .active → mark ≠ 0 → mark ≤ n → t = counted true) ∧
    (v.loader.mode = .active → n < mark → k.lowArmed = true → t = raise (.linkLow l n) (counted false)) ∧
    (v.loader.mode ≠ .active ∨ mark = 0 ∨ (n < mark ∧ k.lowArmed = false) → t = counted k.lowArmed) := by
  intro k mark counted t
  have hm : ∀ b, lowWaterMark (v.setLink l b) l = mark := fun b => by
    simp [mark, lowWaterMark, clamp, shadowWord, State.setLink]
  have ht : t = if v.loader.mode ≠ .active then counted k.lowArmed
      else if mark ≠ 0 ∧ mark ≤ n then counted true
      else if k.lowArmed = true ∧ n < mark then raise (.linkLow l n) (counted false)
      else counted k.lowArmed := by
    simp only [t, setDirectQueued, testLowWater, hm, State.link_setLink_same, State.setLink_setLink]
    rfl
  clear_value mark t
  refine ⟨fun h1 h2 h3 => ?_, fun h1 h2 h3 => ?_, fun h => ?_⟩
  · rw [ht, if_neg (by simp [h1]), if_pos ⟨h2, h3⟩]
  · rw [ht, if_neg (by simp [h1]), if_neg (by omega), if_pos ⟨h3, h2⟩]
  · by_cases ha : v.loader.mode = .active
    · rcases h with h | h | h
      · exact absurd ha h
      · rw [ht, if_neg (by simp [ha]), if_neg (by omega), if_neg (by omega)]
      · rw [ht, if_neg (by simp [ha]), if_neg (by omega), if_neg (by simp [h.2])]
    · rw [ht, if_pos ha]

/-! ### Joining and leaving (R2, R3, R5, R114) -/

@[simp] theorem markQueued_entry (i : Nat) (v : State) :
    (markQueued i v).entry i = { v.entry i with state := .queued, egressSlot := none } := by simp [markQueued]

theorem markQueued_other {i j : Nat} (v : State) (h : j ≠ i) : (markQueued i v).entry j = v.entry j := by
  simp [markQueued, State.entry_setEntry, h]

@[simp] theorem markQueued_link (i : Nat) (v : State) (l : Link) : (markQueued i v).link l = v.link l := rfl

@[simp] theorem markQueued_queue (i : Nat) (v : State) (l : Link) (c : Cls) :
    (markQueued i v).queue l c = v.queue l c := rfl

@[simp] theorem markHeld_entry (i : Nat) (v : State) :
    (markHeld i v).entry i = { v.entry i with state := .held, egressSlot := none } := by simp [markHeld]

theorem markHeld_other {i j : Nat} (v : State) (h : j ≠ i) : (markHeld i v).entry j = v.entry j := by
  simp [markHeld, State.entry_setEntry, h]

@[simp] theorem markHeld_station (i : Nat) (v : State) (st : StationId) : (markHeld i v).station st = v.station st := rfl

@[simp] theorem State.entry_setQueue (v : State) (l : Link) (c : Cls) (q : List Nat) (i : Nat) :
    (v.setQueue l c q).entry i = v.entry i := rfl

@[simp] theorem State.link_setQueue_same (v : State) (l : Link) (c : Cls) (q : List Nat) :
    (v.setQueue l c q).link l = { v.link l with queues := (v.link l).queues.put c q } := by simp [State.setQueue]

theorem State.link_setQueue_other (v : State) {l k : Link} (c : Cls) (q : List Nat) (h : k ≠ l) :
    (v.setQueue l c q).link k = v.link k := by simp [State.setQueue, State.link_setLink, h]

/-- The head of the free set is taken with the counter's stamp (R2, R7). -/
theorem takeEntry_spec {i : Nat} {is : List Nat} {v : State} (e : Entry) (h : v.admission.freeSet = i :: is) :
    (takeEntry i e v).entry i = { e with stamp := v.admission.stampCounter } ∧
    (∀ j, j ≠ i → (takeEntry i e v).entry j = v.entry j) ∧
    takeEntry i e v = { v with
      entries := (takeEntry i e v).entries
      admission := { v.admission with freeSet := is, stampCounter := v.admission.stampCounter + 1 } } :=
  ⟨State.entry_setEntry_same v i _, fun _ hj => (State.entry_setEntry v i _ _).trans (if_neg hj), by
    simp [takeEntry, State.setEntry, h]⟩

/-- An entry joins a class queue at the tail, and a DIRECT one is counted (R3, R22). -/
theorem joinQueue_spec (l : Link) (c : Cls) (i : Nat) (v : State) :
    ∃ x : State, x = { v with entries := x.entries, links := x.links } ∧
    x.entry i = { v.entry i with state := .queued, egressSlot := none } ∧ (∀ j, j ≠ i → x.entry j = v.entry j) ∧
    x.link l = { v.link l with queues := (v.link l).queues.put c (v.queue l c ++ [i]) } ∧
    (∀ k, k ≠ l → x.link k = v.link k) ∧
    joinQueue l c i v =
      if (v.entry i).origin = .direct then setDirectQueued l ((v.link l).directQueued + 1) x else x :=
  ⟨(markQueued i v).setQueue l c (v.queue l c ++ [i]), rfl, by simp,
    fun j hj => by simp [markQueued_other v hj], by simp,
    fun k hk => by simp [State.link_setQueue_other _ c _ hk], by simp [joinQueue, countJoin]⟩

/-- An entry leaves a class queue, a point behind it returns to the front, and a DIRECT one is counted (R3, R22,
R114). -/
theorem leaveQueue_spec (l : Link) (c : Cls) (i : Nat) (v : State) : ∃ x : State, x = { v with links := x.links } ∧
    x.link l = { v.link l with
      queues := (v.link l).queues.put c ((v.queue l c).filter (fun j => j ≠ i))
      points := (v.link l).points.filter (fun p => ¬ (p.2.1 = c ∧ p.2.2 = i)) } ∧
    (∀ k, k ≠ l → x.link k = v.link k) ∧
    leaveQueue l c i v =
      if (v.entry i).origin = .direct then setDirectQueued l ((v.link l).directQueued - 1) x else x :=
  ⟨v.setLink l { v.link l with
      queues := (v.link l).queues.put c ((v.queue l c).filter (fun j => j ≠ i))
      points := (v.link l).points.filter (fun p => !(p.2.1 = c && p.2.2 = i)) }, rfl, by simp,
    fun k hk => by simp [State.link_setLink, hk], by simp [leaveQueue, countLeave]⟩

/-- An entry joins a class queue at a station's insertion point, which then follows it (R3, R114). -/
theorem joinAtPoint_spec (st : StationId) (l : Link) (c : Cls) (i : Nat) (v : State) :
    ∃ x : State, x = { v with entries := x.entries, links := x.links } ∧
    x.entry i = { v.entry i with state := .queued, egressSlot := none } ∧ (∀ j, j ≠ i → x.entry j = v.entry j) ∧
    x.link l = { v.link l with
      queues := (v.link l).queues.put c (insertAfter i (pointOf v st l c) (v.queue l c))
      points := (st, c, i) :: (v.link l).points.filter (fun p => ¬ (p.1 = st ∧ p.2.1 = c)) } ∧
    (∀ k, k ≠ l → x.link k = v.link k) ∧
    joinAtPoint st l c i v =
      if (v.entry i).origin = .direct then setDirectQueued l ((v.link l).directQueued + 1) x else x := by
  refine ⟨movePoint st l c i ((markQueued i v).setQueue l c (insertAfter i (pointOf v st l c) (v.queue l c))), rfl,
    by simp [movePoint], fun j hj => by simp [movePoint, markQueued_other v hj], by simp [movePoint],
    fun k hk => by simp [movePoint, State.link_setLink, State.link_setQueue_other _ c _ hk, hk], ?_⟩
  simp [joinAtPoint, countJoin, movePoint]

/-- An entry joins a hold list at the tail (R5). -/
theorem holdTail_spec (st : StationId) (i : Nat) (v : State) :
    holdTail st i v =
      { v with entries := (holdTail st i v).entries, stations := (holdTail st i v).stations } ∧
    (holdTail st i v).entry i = { v.entry i with state := .held, egressSlot := none } ∧
    (∀ j, j ≠ i → (holdTail st i v).entry j = v.entry j) ∧
    (holdTail st i v).station st = { v.station st with holdList := (v.station st).holdList ++ [i] } ∧
    ∀ k, k ≠ st → (holdTail st i v).station k = v.station k :=
  ⟨rfl, by simp [holdTail, setHoldList], fun j hj => by simp [holdTail, setHoldList, markHeld_other v hj],
    by simp [holdTail, setHoldList], fun k hk => by simp [holdTail, setHoldList, State.station_setStation, hk]⟩

/-- An entry joins a hold list at the place its stamp gives (R5, R103). -/
theorem holdByStamp_spec (st : StationId) (i : Nat) (v : State) :
    holdByStamp st i v =
      { v with entries := (holdByStamp st i v).entries, stations := (holdByStamp st i v).stations } ∧
    (holdByStamp st i v).entry i = { v.entry i with state := .held, egressSlot := none } ∧
    (∀ j, j ≠ i → (holdByStamp st i v).entry j = v.entry j) ∧
    (holdByStamp st i v).station st =
      { v.station st with holdList := insertByStamp v i (v.station st).holdList } ∧
    ∀ k, k ≠ st → (holdByStamp st i v).station k = v.station k :=
  ⟨rfl, by simp [holdByStamp, setHoldList], fun j hj => by simp [holdByStamp, setHoldList, markHeld_other v hj],
    by simp [holdByStamp, setHoldList], fun k hk => by simp [holdByStamp, setHoldList, State.station_setStation, hk]⟩

/-! ### Freeing and nullifying (R2, R18, R20, R118) -/

@[simp] theorem raise_entry (e : Event) (s : State) (i : Nat) : (raise e s).entry i = s.entry i :=
  State.entry_congr (by simp) i

/-- A nullification writes the slot's status and frees; a drop at the hold limits raises HOLD_DROP first. -/
theorem nullifyEntry_spec {i ss : Nat} {k : Link} (a : SlotStatus) {v : State}
    (h : (v.entry i).staging = some (k, ss)) :
    nullifyEntry i a v = freeEntry i (writeSlotStatus k ss a v) ∧
    dropHeld i v = freeEntry i (writeSlotStatus k ss .holdFull (raise (.holdDrop k ss) v)) := by
  simp [dropHeld, nullifyEntry, writeEntryStatus, raiseHoldDrop, h]

/-- The pool and the free set of a state after the free of an entry, and the releases it leaves outstanding. -/
theorem freeEntry_spec (i : Nat) (v : State) :
    ∃ w, w = (if (v.entry i).origin = .forwarded then lowerForward (v.entry i) v else v) ∧
    freeEntry i v = { w with
      entries := Table.write .unused v.entries i .unused
      admission := { v.admission with
        freeSet := v.admission.freeSet ++ [i]
        releases := v.admission.releases + (if entryAwaited w then 1 else 0) } } := by
  refine ⟨_, rfl, ?_⟩
  have h1 : (if (v.entry i).origin = .forwarded then lowerForward (v.entry i) v else v).entries = v.entries := by
    split <;> simp
  have h2 : (if (v.entry i).origin = .forwarded then lowerForward (v.entry i) v else v).admission = v.admission := by
    split <;> simp
  simp only [freeEntry]
  generalize (if (v.entry i).origin = .forwarded then lowerForward (v.entry i) v else v) = w at *
  change (if entryAwaited w = true then _ else _) = _
  split <;> simp_all [State.setEntry]

end Sys2Proof.Machine
end

