-- ==== Sys2Proof/Laws/Specs.lean ====
section
/-! SUPPORT. What a shared operation can do, once for each: the cases of raising, joining, noticing, testing and
returning, which proofs cite in place of unfolding the operation. -/

namespace Sys2Proof.Machine

open Sys2Proof

/-- An event is off, written, or missed. -/
theorem raise_cases (e : Event) (s : State) :
    (kindRouting s (eventKind e) = .off ∧ raise e s = s) ∨
    (kindRouting s (eventKind e) ≠ .off ∧ s.events.missed = 0 ∧ kindUnits (eventKind e) ≤ freeUnits s.events ∧
      raise e s = writeRecord e (kindRouting s (eventKind e)) s) ∨
    (kindRouting s (eventKind e) ≠ .off ∧
      ¬ (s.events.missed = 0 ∧ kindUnits (eventKind e) ≤ freeUnits s.events) ∧
      raise e s = missRecord (eventKind e) s) := by
  unfold raise
  split
  · exact .inl ⟨‹_›, rfl⟩
  · split
    · exact .inr (.inl ⟨‹_›, (‹_ ∧ _› : _ ∧ _).1, (‹_ ∧ _› : _ ∧ _).2, rfl⟩)
    · exact .inr (.inr ⟨‹_›, ‹_›, rfl⟩)

/-- A write-back joins a waiting one of its kind or is issued. -/
theorem issueJoined_cases (p : OwnAccess → Bool) (f : OwnAccess → OwnAccess) (a : OwnAccess) (s : State) :
    (∃ own, replaceFirst p f s.bus.own = some own ∧
      issueJoined p f a s = { s with bus := { s.bus with own := own } }) ∨
    (replaceFirst p f s.bus.own = none ∧ issueJoined p f a s = issue a s) := by
  unfold issueJoined
  split
  · exact .inl ⟨_, ‹_›, rfl⟩
  · exact .inr ⟨‹_›, rfl⟩

/-- The gate is evaluated in ACTIVE mode alone. -/
theorem noticeGate_active {s : State} (h : s.loader.mode = .active) : noticeGate s = evaluateGate s := if_pos h

theorem noticeGate_other {s : State} (h : s.loader.mode ≠ .active) : noticeGate s = s := if_neg h

/-- The end of a stop is taken in STOPPING where nothing is left. -/
theorem testStopEnd_cases (s : State) :
    (s.loader.mode = .stopping ∧ stopMayEnd s = true ∧ testStopEnd s = endStop false s) ∨
    (¬ (s.loader.mode = .stopping ∧ stopMayEnd s = true) ∧ testStopEnd s = s) := by
  unfold testStopEnd
  split
  · exact .inl ⟨(‹_ ∧ _› : _ ∧ _).1, (‹_ ∧ _› : _ ∧ _).2, rfl⟩
  · exact .inr ⟨‹_›, rfl⟩

/-- Emission begins with a buffer, begins to wait for one, or is not due. -/
theorem testEmission_cases (st : StationId) (s : State) :
    (emissionDue s st = false ∧ testEmission st s = s) ∨
    (emissionDue s st = true ∧ ∃ b, freeBuffer s = some b ∧
      testEmission st s = beginFill st b (s.setStation st { s.station st with markerSends := 0 })) ∨
    (emissionDue s st = true ∧ freeBuffer s = none ∧
      testEmission st s = waitMarker st .waitBuffer (s.setStation st { s.station st with markerSends := 0 })) := by
  unfold testEmission
  split
  · split
    · exact .inr (.inl ⟨‹_›, _, ‹_›, rfl⟩)
    · exact .inr (.inr ⟨‹_›, ‹_›, rfl⟩)
  · rename_i h
    exact .inl ⟨by simpa using h, rfl⟩

/-- The beats of the oldest outstanding read go to its owner. -/
theorem returnBeats_live {p : ReadOwner → Bool} {o : ReadOwner} {beats : List Beat} {os : List Outstanding} {s : State}
    (h : s.bus.outstanding = ⟨o, beats.length, true⟩ :: os) (hp : p o = true) :
    returnBeats p beats s = takeReturn o beats { s with bus := { s.bus with outstanding := os } } := by
  simp [returnBeats, returning, h, hp, dropOutstanding, Option.filter]

/-- The beats of an abandoned read go to no one. -/
theorem returnBeats_dead {p : ReadOwner → Bool} {o : ReadOwner} {beats : List Beat} {os : List Outstanding} {s : State}
    (h : s.bus.outstanding = ⟨o, beats.length, false⟩ :: os) (hp : p o = true) :
    returnBeats p beats s = { s with bus := { s.bus with outstanding := os } } := by
  simp [returnBeats, returning, h, hp, dropOutstanding, Option.filter]

/-! ### Beats, joins and the end of a stop -/

theorem answerBeats_length (ws : List Word) : (answerBeats ws).length = ws.length := by
  induction ws using answerBeats.induct <;> simp_all [answerBeats]

/-- Every beat of an answer carries RESPONSE and GOOD, the final one LAST (R150). -/
theorem answerBeats_get (ws : List Word) : ∀ n w, ws[n]? = some w →
    (answerBeats ws)[n]? = some (⟨w, decide (n + 1 = ws.length), true, true⟩ : Beat) := by
  induction ws using answerBeats.induct with
  | case1 => simp
  | case2 w => intro n x h; cases n <;> simp_all [answerBeats]
  | case3 w ws hne ih =>
    intro n x h
    rw [answerBeats.eq_3 _ _ hne]
    cases n with
    | zero => simp_all
    | succ n => simp at h ⊢; exact ih n x h

theorem ownBeats_length (ws : List Word) : (ownBeats ws).length = ws.length := by
  induction ws using ownBeats.induct <;> simp_all [ownBeats]

/-- Every beat of an own write carries GOOD with all lanes enabled, the final one LAST (R150). -/
theorem ownBeats_get (ws : List Word) : ∀ n w, ws[n]? = some w →
    (ownBeats ws)[n]? = some (⟨⟨w, decide (n + 1 = ws.length), false, true⟩, 0xF⟩ : WriteBeat) := by
  induction ws using ownBeats.induct with
  | case1 => simp
  | case2 w => intro n x h; cases n <;> simp_all [ownBeats]
  | case3 w ws hne ih =>
    intro n x h
    rw [ownBeats.eq_3 _ _ hne]
    cases n with
    | zero => simp_all
    | succ n => simp at h ⊢; exact ih n x h

/-- Nothing waits that `p` accepts. -/
theorem replaceFirst_none {p : OwnAccess → Bool} {f : OwnAccess → OwnAccess} : ∀ {is : List OwnItem},
    (∀ i ∈ is, p i.access = false) → replaceFirst p f is = none
  | [], _ => rfl
  | i :: is, h => by
    simp [replaceFirst, h i (by simp), replaceFirst_none (f := f) (fun j hj => h j (List.mem_cons_of_mem i hj))]

/-- The first access that `p` accepts is changed in its place. -/
theorem replaceFirst_some {p : OwnAccess → Bool} {f : OwnAccess → OwnAccess} {a : OwnAccess} {post : List OwnAccess} :
    ∀ {is : List OwnItem} {pre : List OwnAccess}, is.map OwnItem.access = pre ++ a :: post →
      (∀ b ∈ pre, p b = false) → p a = true →
      ∃ js, replaceFirst p f is = some js ∧ js.map OwnItem.access = pre ++ f a :: post
  | [], pre, h, _, _ => by simp at h
  | i :: is, [], h, _, ha => by
    obtain ⟨rfl, rest⟩ : i.access = a ∧ is.map OwnItem.access = post := by simpa using h
    exact ⟨_, by rw [replaceFirst, if_pos ha], by simp [rest]⟩
  | i :: is, b :: pre, h, hp, ha => by
    obtain ⟨rfl, rest⟩ : i.access = b ∧ is.map OwnItem.access = pre ++ a :: post := by simpa using h
    obtain ⟨js, h1, h2⟩ := replaceFirst_some (f := f) rest (fun b hb => hp b (List.mem_cons_of_mem _ hb)) ha
    exact ⟨i :: js, by simp [replaceFirst, hp, h1], by simp [h2]⟩

/-- A fill is in progress where some station is FILLING. -/
theorem fillInProgress_iff (s : State) :
    fillInProgress s = true ↔ ∃ st, (s.station st).markerPhase = .filling := by
  simp [fillInProgress, allStations]

/-- Bit `k` of a word formed from a number. -/
theorem bit_word (n k : Nat) (h : k < 32) : bit (word n) k = decide (n / 2 ^ k % 2 = 1) := by
  simp only [bit, word, BitVec.getLsbD_ofNat, h, decide_true, Bool.true_and, Nat.testBit_eq_decide_div_mod_eq]

/-- A field of a word formed from a number. -/
theorem bits_word (n lo len : Nat) : bits (word n) lo len = n % 2 ^ 32 / 2 ^ lo % 2 ^ len := by
  simp [bits, word]

end Sys2Proof.Machine
end

