-- ==== Sys2Proof/Laws/Writes.lean ====
section
/-! SUPPORT. The words of an accepted write: their addresses, and where the good watched words of a write in the policy
area lie. -/

namespace Sys2Proof.Machine

open Sys2Proof

theorem isBlock_cases {n : Nat} (h : isBlock n = true) : n = 1 ∨ n = 2 ∨ n = 4 ∨ n = 8 := by
  simpa [isBlock, or_assoc] using h

/-- The words of consecutive beats lie one after the other. -/
theorem mem_wordsFrom {m : Lanes} {a : Nat} {bs : List Beat} {x : WrittenWord} (h : x ∈ wordsFrom m a bs) :
    a ≤ x.addr ∧ x.addr < a + 4 * bs.length ∧ (x.addr - a) % 4 = 0 ∧ x.mask = m := by
  induction bs generalizing a with
  | nil => exact absurd h List.not_mem_nil
  | cons b bs ih =>
    simp only [wordsFrom, List.mem_cons] at h
    simp only [List.length_cons]
    rcases h with h | h
    · subst h; simp
    · obtain ⟨h1, h2, h3, h4⟩ := ih h
      refine ⟨?_, ?_, ?_, h4⟩ <;> omega

theorem wordsFrom_rising (m : Lanes) (a : Nat) (bs : List Beat) :
    (wordsFrom m a bs).Pairwise (fun x y => x.addr < y.addr) := by
  induction bs generalizing a with
  | nil => exact List.Pairwise.nil
  | cons b bs ih =>
    refine List.pairwise_cons.mpr ⟨fun x hx => ?_, ih (a + 4)⟩
    have := mem_wordsFrom hx
    simp only; omega

theorem writeStart_aligned (w : UpWrite) : writeStart w % (4 * w.beats.length) = 0 := by
  simp [writeStart, blockStart]

/-- A block of 1, 2, 4 or 8 beats lies in one 32-byte line. -/
theorem writtenWords_line {w : UpWrite} (hw : isBlock w.beats.length = true) {x : WrittenWord}
    (hx : x ∈ writtenWords w) :
    x.addr % 4 = 0 ∧ x.addr / 32 = writeStart w / 32 ∧ writeStart w ≤ x.addr := by
  have h1 := mem_wordsFrom hx
  have h2 := writeStart_aligned w
  generalize hs : writeStart w = a at *
  rcases isBlock_cases hw with h | h | h | h <;> rw [h] at h1 h2 <;> omega

theorem policyBase_aligned (s : State) : policyBase s % 0x800000 = 0 := by simp [policyBase]

/-- A write to the policy area begins inside it. -/
theorem InPolicy.start {u : State} {w : UpWrite} (h : InPolicy u w) :
    policyBase u ≤ writeStart w ∧ writeStart w < policyBase u + 0x40000 := by
  obtain ⟨off, h⟩ := h
  unfold regionOf at h
  split at h
  · split at h
    · rename_i he; rw [he]; simp
    · exact absurd h (by simp)
  · split at h
    · rename_i he; exact he
    · split at h
      · rename_i r hr
        exfalso
        subst h
        cases hm : u.loader.map with
        | none => simp [hm] at hr
        | some m =>
          simp only [hm, Option.bind_some, mapRegion, allLinks, List.findSome?_eq_some_iff] at hr
          obtain ⟨_, l, _, _, hl, _⟩ := hr
          unfold ringRegion at hl
          repeat' split at hl
          all_goals first | simp at hl
          try (obtain ⟨_, _, _, h⟩ := hl)
      · split at h <;> simp at h

/-- The good watched words of a write in the policy area lie in one 32-byte line, each on a word boundary, and are
watched. -/
theorem mem_goodWords {u : State} {w : UpWrite} (hw : isBlock w.beats.length = true) (hp : InPolicy u w)
    {p : PolicyWord} (h : p ∈ goodWords u w) :
    p.off % 4 = 0 ∧ p.off / 32 = (writeStart w - policyBase u) / 32 ∧ p.off < 0x40000 ∧ isWatched p.off = true := by
  simp only [goodWords, watchedWords, List.mem_map, List.mem_filter] at h
  obtain ⟨x, ⟨⟨hx, hwatch⟩, _⟩, rfl⟩ := h
  have h1 := writtenWords_line hw hx
  have h2 := policyBase_aligned u
  have h3 := hp.start
  refine ⟨?_, ?_, ?_, hwatch⟩ <;> simp only <;> omega

/-- The good watched words of a write in the policy area stand in rising order. -/
theorem goodWords_rising {u : State} {w : UpWrite} (hw : isBlock w.beats.length = true) (hp : InPolicy u w) :
    (goodWords u w).Pairwise (fun p q => p.off < q.off) := by
  have h3 := hp.start
  unfold goodWords watchedWords
  refine List.pairwise_map.mpr ?_
  have hr := ((wordsFrom_rising (writeMask w) (writeStart w) w.beats).filter
    (fun x => isWatched (x.addr - policyBase u))).filter (fun x => x.good)
  refine hr.imp_of_mem ?_
  intro x y hx hy hxy
  have hx' := writtenWords_line hw (List.mem_of_mem_filter (List.mem_of_mem_filter hx))
  simp only; omega

/-! ### What an accepted write does, by region and mode -/

theorem upstreamWrite_accepted {u : State} {w : UpWrite} (ha : Accepts u w) :
    upstreamWrite w u = treatWrite w (emit .writeAccepted u) := by
  simp [upstreamWrite, ha.1, ha.2]

theorem upstreamWrite_policy {u : State} {w : UpWrite} (ha : Accepts u w) (hp : InPolicy u w) :
    upstreamWrite w u = policyWrite w (emit .writeAccepted u) := by
  obtain ⟨off, ho⟩ := hp
  have : regionOf (emit .writeAccepted u) (writeStart w) = .policy off := ho
  rw [upstreamWrite_accepted ha]
  simp [treatWrite, this]

/-- In ACTIVE mode the good words of a policy area write are merged, then act. -/
theorem upstreamWrite_active {u : State} {w : UpWrite} (ha : Accepts u w) (hp : InPolicy u w)
    (hm : u.loader.mode = .active) :
    upstreamWrite w u =
      deviceWritten (goodWords u w) (profilesWritten (goodWords u w) (forEach actActive (goodWords u w) (merged u w))) := by
  rw [upstreamWrite_policy ha hp]
  have : (emit Output.writeAccepted u).loader.mode = .active := hm
  simp only [policyWrite, this]
  rfl

/-- In STOPPING they are merged, and two of them act. -/
theorem upstreamWrite_stopping {u : State} {w : UpWrite} (ha : Accepts u w) (hp : InPolicy u w)
    (hm : u.loader.mode = .stopping) : upstreamWrite w u = forEach actStopping (goodWords u w) (merged u w) := by
  rw [upstreamWrite_policy ha hp]
  have : (emit Output.writeAccepted u).loader.mode = .stopping := hm
  simp only [policyWrite, this]
  rfl

/-- In LOADING they go to the load copy. -/
theorem upstreamWrite_loading {u : State} {w : UpWrite} (ha : Accepts u w) (hp : InPolicy u w)
    (hm : u.loader.mode = .loading) :
    upstreamWrite w u = forEach takeLoading (goodWords u w) (reportBad (watchedWords u w) (forwarded u w)) := by
  rw [upstreamWrite_policy ha hp]
  have : (emit Output.writeAccepted u).loader.mode = .loading := hm
  simp only [policyWrite, this]
  rfl

/-- A list with rising offsets holds at most one word of an offset. -/
theorem filter_off_eq {ps : List PolicyWord} (h : ps.Pairwise (fun p q => p.off < q.off)) {p : PolicyWord}
    (hp : p ∈ ps) : ps.filter (fun q => q.off = p.off) = [p] := by
  induction ps with
  | nil => exact absurd hp List.not_mem_nil
  | cons q ps ih =>
    have hq := List.pairwise_cons.mp h
    rcases List.mem_cons.mp hp with rfl | hp
    · have : ps.filter (fun r => decide (r.off = p.off)) = [] := by
        refine List.filter_eq_nil_iff.mpr fun r hr => ?_
        have := hq.1 r hr
        simp only [decide_eq_true_eq]; omega
      simp [this]
    · have hne : q.off ≠ p.off := by have := hq.1 p hp; omega
      simp [hne, ih hq.2 hp]

/-- The word of an offset is the one that `find?` finds. -/
theorem find_off_eq {ps : List PolicyWord} (h : ps.Pairwise (fun p q => p.off < q.off)) {p : PolicyWord}
    (hp : p ∈ ps) : ps.find? (fun q => q.off = p.off) = some p := by
  rw [← List.head?_filter, filter_off_eq h hp]; rfl

end Sys2Proof.Machine
end

