-- ==== Sys2Proof/WellFormed.lean ====
section
/-! DEFINITION. The well-formed commands: a bus request is a bus block, a return carries the beats its read asked for,
and a write falls, with its lanes and its data, where its row of the table says. What depends on the state (the mode,
the region map, the stations) is judged by the meaning, not here. -/

namespace Sys2Proof

open Sys2Proof.Machine

/-- A write is a bus block; one of several beats enables every lane (R149). -/
def blockOk (w : UpWrite) : Bool :=
  isBlock w.beats.length && (decide (w.beats.length = 1) || decide (w.mask = 0xF))

/-- The byte offset of an address in the policy area, whatever the strap value; none outside it (R166). -/
def policyOffset (a : Nat) : Option Nat := if a % 0x800000 < Config.policyBytes then some (a % 0x800000) else none

/-- Some good beat of the write falls on a policy offset that `p` accepts, with data and lanes that `q` accepts. -/
def writesWord (p : Nat → Bool) (q : Word → Lanes → Bool) (w : UpWrite) : Bool :=
  (writtenWords w).any (fun x => x.good && q x.data x.mask &&
    match policyOffset x.addr with
    | some off => p off
    | none => false)

/-- The write writes the word at one policy offset. -/
def writesAt (off : Nat) (q : Word → Lanes → Bool) (w : UpWrite) : Bool := writesWord (fun n => n = off) q w

/-- The low byte is written, with a code that `p` accepts. -/
def codeIn (p : Nat → Bool) (d : Word) (m : Lanes) : Bool := lane m 0 && p (bits d 0 8)

/-- A lane that is not written contradicts nothing. -/
def agreesIf (written : Bool) (agrees : Bool) : Bool := !written || agrees

/-- The valid flag written, if it is, is `v`. -/
def validIs (v : Bool) (d : Word) (m : Lanes) : Bool := agreesIf (lane m 2) (bit d 16 == v)

/-- The request written, if it is, is one that `p` accepts. -/
def requestIn (p : Nat → Bool) (d : Word) (m : Lanes) : Bool := agreesIf (lane m 0) (p (bits d 0 8))

/-- The write writes a station control word. -/
def writesControl (q : Word → Lanes → Bool) (w : UpWrite) : Bool :=
  writesWord (fun n => (controlWordOf n).isSome) q w

/-- A commit with valid set and one request. -/
def requests (n : Nat) (w : UpWrite) : Bool :=
  writesControl (fun d m => validIs true d m && requestIn (fun c => c = n) d m) w

/-- Some beat of the write falls on word 7 of a slot, with a beat that `q` accepts. -/
def writesSeven (q : WrittenWord → Bool) (w : UpWrite) : Bool :=
  (writtenWords w).any (fun x => decide (x.addr / 4 % 8 = 7) && q x)

/-- The beats of a return of `n` beats. -/
def returnsBeats (n : Nat) (bs : List Beat) : Bool := decide (bs.length = n)

/-- The command is one the table's row can spell. -/
def wellFormed : Instr → Bool
  | .resetInput _ => true
  | .millisecond => true
  | .minuteBoundary => true
  | .quietTimerExpiry => true
  | .holdTimerExpiry _ => true
  | .forwardTimerExpiry _ => true
  | .arrivalTimerExpiry _ => true
  | .stopTimeout => true
  | .coalescingTimeout => true
  | .run w => blockOk w && writesAt 0x000 (codeIn (fun c => c = 1)) w
  | .stop w => blockOk w && writesAt 0x000 (codeIn (fun c => c = 2)) w
  | .deviceCommandNone w => blockOk w && writesAt 0x000 (codeIn (fun c => c = 0)) w
  | .deviceCommandUnknown w => blockOk w && writesAt 0x000 (codeIn (fun c => 2 < c)) w
  | .writeRetry w => blockOk w
  | .watchedWrite w => blockOk w
  | .writeEntryFreed => true
  | .downstreamGrant => true
  | .forwardedReadReturn bs => isBlock bs.length
  | .readyReport w => blockOk w && writesSeven (fun x => x.good && isReadyReport x.data x.mask) w
  | .stagingWrite w => blockOk w
  | .admissionReadIssue _ => true
  | .admissionReadReturn bs => returnsBeats 8 bs
  | .stallServed => true
  | .egressRead (.issued r) => isBlock r.beats
  | .egressRead .fromPort => true
  | .egressRead (.byScheduler _) => true
  | .answerReadReturn bs => returnsBeats 8 bs
  | .egressWrite w => blockOk w
  | .receiveControlWrite w => blockOk w && writesSeven (fun _ => true) w
  | .commit w => blockOk w && writesControl (fun d m => validIs true d m && requestIn (fun c => c = 0 || 7 < c) d m) w
  | .validate w => blockOk w && writesControl (validIs true) w
  | .invalidate w => blockOk w && writesControl (validIs false) w
  | .depart w => blockOk w && requests 1 w
  | .evict w => blockOk w && requests 2 w
  | .forward w => blockOk w && requests 3 w
  | .abort w => blockOk w && requests 4 w
  | .release w => blockOk w && requests 5 w
  | .arrive w => blockOk w && requests 6 w
  | .adopt w => blockOk w && requests 7 w
  | .sweepStep _ => true
  | .drainStep _ => true
  | .markerFillEnd => true
  | .markerBufferServed => true
  | .markerEntryServed => true
  | .clockSet w => blockOk w && writesAt 0x008 (fun d m => lane m 3 && bit d 31) w
  | .profileWrite w => blockOk w && writesWord (fun n => 0x4000 ≤ n && n < 0x4400) (fun _ _ => true) w
  | .sessionOpen w => blockOk w && writesAt 0x188 (codeIn (fun c => c = 1)) w
  | .sessionClose w => blockOk w && writesAt 0x188 (codeIn (fun c => c = 2)) w
  | .sessionCommandNone w => blockOk w && writesAt 0x188 (codeIn (fun c => c = 0)) w
  | .sessionCommandUnknown w => blockOk w && writesAt 0x188 (codeIn (fun c => 2 < c)) w
  | .maintenanceIndexWrite w => blockOk w && writesAt 0x18C (fun _ m => lane m 0) w
  | .gameBurstWrite w => blockOk w && writesWord (fun n => 0x110 ≤ n && n < 0x120) (fun _ m => lane m 2 || lane m 3) w
  | .coalescingThresholdWrite w => blockOk w && writesAt 0x138 (fun _ m => lane m 0) w
  | .consumerWrite w => blockOk w && writesAt 0x140 (fun _ m => lane m 0 || lane m 1) w
  | .imageWrite w => blockOk w
  | .loadReadReturn bs => returnsBeats 8 bs

end Sys2Proof
end

