-- ==== Sys2Proof/Tests/Slice0.lean ====
section
/-! SUPPORT. Tests of the model: ill-formed commands that WellFormed refuses, the worked figures of the spec, and for
every statement with hypotheses a state and operands that meet them, clause by clause. -/

namespace Sys2Proof.Tests

open Sys2Proof Sys2Proof.Machine

/-! ### Small states and requests -/

/-- The rings of link `k`: 16 slots each, overhead 92 and default rate 60 (section 2.2). -/
def ring (k : Nat) : LinkConfig :=
  { stagingBase := 0x100000 + 0x10000 * k, stagingSize := 16, stagingStart := 0
    egressBase := 0x200000 + 0x10000 * k, egressSize := 16, egressStart := 0
    receiveBase := 0x300000 + 0x10000 * k, receiveSize := 16
    defaultRate := 60, preamble := 20, gap := 28, ack := 44 }

/-- A region map whose image area has 4 blocks. -/
def rings : RegionMap := { links := ⟨ring 0, ring 1, ring 2, ring 3⟩, imageBase := 0x400000, capacity := 4 }

/-- The part in a mode, with that map and two free entries. -/
def inMode (m : Mode) : State :=
  { State.reset with
    admission := { State.reset.admission with freeSet := [0, 1] }
    loader := { State.reset.loader with mode := m, map := some rings, loaded := true } }

/-- One write of a whole word. -/
def wr (a : Nat) (d : Word) : UpWrite := { addr := BitVec.ofNat 26 a, mask := 0xF, beats := [⟨d, true, false, true⟩] }

/-- The same with a byte mask. -/
def wrLanes (a : Nat) (m : Lanes) (d : Word) : UpWrite := { wr a d with mask := m }

/-- The same with an error-marked beat. -/
def wrBad (a : Nat) : UpWrite := { wr a 0 with beats := [⟨0, true, false, false⟩] }

/-- A write of no beat, which is no bus block. -/
def wrNone : UpWrite := { wr 0 0 with beats := [] }

/-- Returned beats of a read of 8 words, good or not. -/
def answer (ws : List Word) (good : Bool) : List Beat := ws.map (fun w => ⟨w, false, true, good⟩)

def eight : List Word := [1, 2, 3, 4, 5, 6, 7, 8]

def accepts (u : State) (w : UpWrite) : Bool := isBlock w.beats.length && !retryDue u w

def inPolicy (u : State) (w : UpWrite) : Bool :=
  match regionOf u (writeStart w) with
  | .policy _ => true
  | _ => false

def carries (u : State) (w : UpWrite) (p : PolicyWord) : Bool :=
  accepts u w && inPolicy u w && (goodWords u w).contains p

theorem accepts_iff {u : State} {w : UpWrite} : accepts u w = true ↔ Accepts u w := by
  simp [accepts, Accepts]

theorem inPolicy_iff {u : State} {w : UpWrite} : inPolicy u w = true ↔ InPolicy u w := by
  unfold inPolicy InPolicy
  cases regionOf u (writeStart w) <;> simp

/-- The checks the witnesses below decide are the hypotheses of the statements. -/
theorem carries_iff {u : State} {w : UpWrite} {p : PolicyWord} : carries u w p = true ↔ Carries u w p := by
  simp [carries, Carries, accepts_iff, inPolicy_iff, and_assoc]

/-- A station's record: valid, OPEN by profile 16, threshold −70, dwell count 3 (section 4.8). -/
def record : StationRecord :=
  { StationRecord.blank with valid := true, profile := 16, threshold := 186, dwell := 3, home := .radioB
                             hysteresis := 4, margin := 6, neighbour := 198 }

/-- A valid station in a handoff state. -/
def stationIn (h : HandoffState) : Station :=
  { Station.initial with valid := true, record := record, access := some .openAccess, handoff := some h }

/-- ACTIVE mode with station 9 in a handoff state. -/
def withStation (x : Station) : State := (inMode .active).setStation 9 x

/-- An entry of 1500 bytes of station 9, staged on link 1, of cost 370. -/
def frame (e : EntryState) : Entry :=
  { Entry.unused with state := e, staging := some (.radioA, 3), station := some 9, cls := .bulk, length := 1500
                      cost := 370 }

/-! ### WellFormed refuses each ill-formed command -/

theorem test_wellformed_no_block : wellFormed (.watchedWrite wrNone) = false := by decide

theorem test_wellformed_block_mask :
    wellFormed (.imageWrite { wr 0 0 with mask := 1, beats := [⟨0, false, false, true⟩, ⟨0, true, false, true⟩] }) =
      false := by decide

theorem test_wellformed_codes :
    wellFormed (.run (wr 0 2)) = false ∧ wellFormed (.stop (wr 0 1)) = false ∧
      wellFormed (.deviceCommandNone (wr 0 1)) = false ∧ wellFormed (.deviceCommandUnknown (wr 0 2)) = false ∧
      wellFormed (.run (wrLanes 0 0xE 1)) = false ∧ wellFormed (.run (wr 4 1)) = false := by decide

theorem test_wellformed_session_codes :
    wellFormed (.sessionOpen (wr 0x188 2)) = false ∧ wellFormed (.sessionClose (wr 0x188 1)) = false ∧
      wellFormed (.sessionCommandNone (wr 0x188 1)) = false ∧
      wellFormed (.sessionCommandUnknown (wr 0x188 2)) = false := by decide

theorem test_wellformed_returns :
    wellFormed (.admissionReadReturn (answer [1] true)) = false ∧
      wellFormed (.answerReadReturn (answer [1] true)) = false ∧
      wellFormed (.loadReadReturn (answer [1] true)) = false ∧
      wellFormed (.forwardedReadReturn (answer [1, 2, 3] true)) = false ∧
      wellFormed (.egressRead (.issued ⟨0, 3⟩)) = false := by decide

theorem test_wellformed_control_words :
    wellFormed (.commit (wr 0x203C 0)) = false ∧ wellFormed (.validate (wr 0x203C 0)) = false ∧
      wellFormed (.invalidate (wr 0x203C 0x10000)) = false ∧ wellFormed (.depart (wr 0x203C 0x10002)) = false ∧
      wellFormed (.evict (wr 0x203C 0x10001)) = false ∧ wellFormed (.forward (wr 0x203C 0x10001)) = false ∧
      wellFormed (.abort (wr 0x203C 0x10001)) = false ∧ wellFormed (.release (wr 0x203C 0x10001)) = false ∧
      wellFormed (.arrive (wr 0x203C 0x10001)) = false ∧ wellFormed (.adopt (wr 0x2038 0x10007)) = false := by
  decide

theorem test_wellformed_words :
    wellFormed (.clockSet (wr 8 1)) = false ∧ wellFormed (.profileWrite (wr 0x4400 0)) = false ∧
      wellFormed (.maintenanceIndexWrite (wrLanes 0x18C 0xE 0)) = false ∧
      wellFormed (.gameBurstWrite (wrLanes 0x110 0x3 0)) = false ∧
      wellFormed (.coalescingThresholdWrite (wrLanes 0x138 0xE 0)) = false ∧
      wellFormed (.consumerWrite (wrLanes 0x140 0xC 0)) = false ∧
      wellFormed (.readyReport (wr 0x10001C 0)) = false ∧
      wellFormed (.receiveControlWrite (wr 0x300000 0)) = false := by decide

theorem test_wellformed_accepts :
    wellFormed (.run (wr 0 1)) = true ∧ wellFormed (.readyReport (wr 0x10001C 0x01010000)) = true ∧
      wellFormed (.depart (wr 0x223C 0x10001)) = true ∧ wellFormed (.clockSet (wr 8 0x80000000)) = true := by decide

/-! ### The worked figures of the spec -/

/-- The worked costs of section 2.2, its last paragraph among them. -/
theorem test_costs :
    frameCost 92 1733 120 = 98 ∧ frameCost 92 1733 1500 = 162 ∧ frameCost 92 433 1500 = 370 ∧
      frameCost 92 800 100 = 102 ∧ frameCost 80 2400 1500 = 130 ∧ frameCost 80 2400 64 = 83 ∧
      frameCost 92 1 16383 = 65535 ∧ frameCost 92 60 1500 = 2092 := by decide

/-- R36's example: a GAME frame of cost 65535 with 15 retries. -/
theorem test_retry_saturates : chargeCredit (-1000) (retryExtra 15 65535) = -65536 ∧
    chargeTokens 500 (retryExtra 15 65535) = -65035 ∧ chargeCredit 30 (retryExtra 2 370) = -710 := by decide

/-- The worked estimates of section 4.4. -/
theorem test_smoothing :
    smooth (some (-1040)) (-72) = -1054 ∧ smooth (some (-1152)) (-72) = -1152 ∧ smooth (some (-1147)) (-72) = -1148 ∧
      smooth (some (-1157)) (-72) = -1157 ∧ smooth none (-60) = -960 := by decide

/-- R86's examples: Monday 21:00 to Tuesday 07:00, and the window that wraps over the end of the week. -/
theorem test_windows :
    let w (a b : Nat) : Word := BitVec.ofNat 32 (0x80000000 + a + 65536 * b)
    windowContains (w 1260 1860) 1260 = true ∧ windowContains (w 1260 1860) 1859 = true ∧
      windowContains (w 1260 1860) 1860 = false ∧ windowContains (w 9900 420) 10079 = true ∧
      windowContains (w 9900 420) 0 = true ∧ windowContains (w 9900 420) 420 = false ∧
      windowContains (w 5 5) 5 = false ∧ windowContains (w 10080 9) 3 = false := by decide

/-- The check values of the CRC-32 of R139: four zero bytes, and "123456789". -/
theorem test_crc :
    crcFinal (crcBeat crcStart 0) = 0x2144DF1C ∧
      crcFinal (crcBits 0x39 0 8 (crcBeat (crcBeat crcStart 0x34333231) 0x38373635)) = 0xCBF43926 := by
  decide +kernel

/-- Pull 3 of section 3.8: from BULK, quanta 300, 600, 400 and 100, the rotation chooses BULK with credit 30 and
INTERACTIVE left at 600. -/
theorem test_rotation :
    rotation ⟨⟨false, true, 0, 300⟩, ⟨true, false, 162, 600⟩, ⟨true, false, 370, 400⟩, ⟨false, false, 250, 100⟩⟩
      ⟨0, 0, 0, 0⟩ .bulk = some (.bulk, ⟨0, 600, 30, 0⟩) := by decide

/-- Events 5 and 6 of section 10.6: C = 511 leaves one unit free; C = 514 serves the missed mask and P becomes 0. -/
theorem test_ring_serves_missed :
    let recs : List EventRecord := (List.range 510).map (fun k => ⟨510 + k, 1, .log, 0⟩) ++ [⟨1020, 2, .line, 0⟩]
    let s : State := { inMode .active with events :=
      { producer := 1022, consumer := 510, records := recs, missed := 0x1400, missedCount := 2, line := true } }
    let t := consumerIndex 511 s
    let r := consumerIndex 514 t
    (t.events.consumer, t.events.producer, t.events.missedCount) = (511, 1022, 2) ∧
      (r.events.consumer, r.events.producer, r.events.missedCount, r.events.line) = (514, 0, 0, true) := by
  decide +kernel

/-- Event 7 of section 7.10 and what follows: a complete image, a set clock and no maintenance profile open the gate. -/
theorem test_gate_opens :
    let s : State := { inMode .active with
      image := { State.reset.image with session := .opened, count := 4, verified := 4, capacity := 4 }
      clock := { State.reset.clock with isSet := true, minute := 1591 }
      shadow := [(0x18C / 4, 16)] }
    (evaluateGate s).gate.isOpen = true ∧
      (evaluateGate { s with game := { active := true, quiet := none } }).gate.isOpen = false := by decide +kernel

/-- A refused write is answered RETRY and nothing else; an accepted plain one is forwarded. -/
theorem test_device_word_retry_in_stopping :
    (match exec (.run (wr 0 1)) (inMode .stopping) with
      | .next t => decide (t.out = [.writeRetry] ∧ t.bus.forwarded = [])
      | _ => false) = true := by decide +kernel

/-- RUN from reset: LOADING, with the status write, its NONE write to come, and the read of offset 0 (R168, R169). -/
theorem test_run_from_reset :
    (match exec (.run (wr 0 1)) State.reset with
      | .next t => decide (t.loader.mode = .loading ∧
          t.bus.own.map OwnItem.access = [.deviceStatus (deviceStatusWord t) true, .loadRead 0])
      | _ => false) = true := by decide +kernel

/-- The codes of the status words (11.2, 11.3): SENT in bits 29 to 26; LOADING, RUN, ACCEPTED. -/
theorem test_status_words :
    slotStatusWord .sent = 0x04000000 ∧ slotStatusWord .memoryError = 0x24000000 ∧
      deviceStatusWord { inMode .loading with loader := { (inMode .loading).loader with
        lastCommand := 1, lastResult := .accepted } } = 0x15 := by decide

/-- A record's first word: HANDOFF_STATE of station 9 from DEPARTING to RESIDENT (11.4). -/
theorem test_event_words :
    eventWords (.handoffState 9 .departing .resident 7 3) = [0x21090017, 0x307, 0, 0] := by decide

/-! ### Witnesses: every command, time -/

theorem witness_StepTakesTheFrontCommand :
    State.reset.pending = [] ∧ ({ State.reset with pending := [.millisecond, .run (wr 0 1)] } : State).pending =
      .millisecond :: [.run (wr 0 1)] := ⟨rfl, rfl⟩

/-- The clock of a state, changed. -/
def atTime (second sub : Nat) (s : State) : State := { s with clock := { s.clock with second := second, subSecond := sub } }

theorem witness_MillisecondAdvancesClocksAndRefills :
    (finishMillisecond (start (atTime 0 998 State.reset))).clock.subSecond < 999 ∧
    (999 ≤ (finishMillisecond (start (atTime 58 999 State.reset))).clock.subSecond ∧
      (finishMillisecond (start (atTime 58 999 State.reset))).clock.second < 59) ∧
    (999 ≤ (finishMillisecond (start (atTime 59 999 State.reset))).clock.subSecond ∧
      59 ≤ (finishMillisecond (start (atTime 59 999 State.reset))).clock.second) ∧
    (finishMillisecond (start (inMode .active))).loader.mode = .active ∧
    (finishMillisecond (start (inMode .loading))).loader.mode ≠ .active := by decide +kernel

theorem witness_MillisecondAdvancesClocksAndRefills_standing :
    State.reset.clock.boundaryDue = false ∧ State.reset.game.quiet ≠ some State.reset.clock.now ∧
    (∀ st k, (State.reset.station st).timer ≠ some (k, State.reset.clock.now)) ∧
    stopTimerDue State.reset = false ∧ coalescingDue State.reset = false :=
  ⟨rfl, nofun, nofun, by decide, by decide⟩

theorem witness_MinuteBoundaryPassesAndEvaluates :
    ((inMode .active).station 9).valid = false ∧ ((withStation (stationIn .resident)).station 9).valid = true := by
  decide +kernel

/-- Line records for the coalescing timeout of 10 ms. -/
def lineAt (now : Ms) : State :=
  { State.reset with
    clock := { State.reset.clock with now := now }
    events := { State.reset.events with producer := 2, records := [⟨0, 1, .log, 0⟩, ⟨1, 1, .line, 0⟩] } }

theorem witness_TimersExpireAtTheirMillisecond :
    (∃ pre r post, (start (lineAt 10)).events.records = pre ++ r :: post ∧ (∀ q ∈ pre, q.routing ≠ .line) ∧
      r.routing = .line ∧ coalescingTimeout (start (lineAt 10)) ≠ 0 ∧
      coalescingTimeout (start (lineAt 10)) ≤ ((start (lineAt 10)).clock.now - r.written).toNat) ∧
    coalescingDue (start (lineAt 9)) = false := by
  refine ⟨⟨[⟨0, 1, .log, 0⟩], ⟨1, 1, .line, 0⟩, [], ?_⟩, ?_⟩ <;> decide +kernel

/-! ### Witnesses: device commands and the stop -/

/-- The command code of a device control word in the state it is judged in. -/
def deviceCode (s : State) (w : UpWrite) : Nat :=
  let u := start s
  let d := if u.loader.mode = .transparent then forEach mergeShadow (goodWords u w) (forwarded u w)
    else forEach actActive (goodWords u w) (merged u w)
  bits (shadowWord d 0) 0 8

theorem witness_DeviceCommandsAreJudgedByTheMode :
    let T := inMode .transparent
    let A := inMode .active
    ((start T).loader.mode = .transparent ∧ (start A).loader.mode = .active) ∧
    (carries (start T) (wr 0 1) ⟨0, 1, 0xF⟩ = true ∧ lane 0xF 0 = true ∧ deviceCode T (wr 0 1) = 1) ∧
    (carries (start T) (wr 0 0) ⟨0, 0, 0xF⟩ = true ∧ deviceCode T (wr 0 0) = 0) ∧
    (carries (start A) (wr 0 0) ⟨0, 0, 0xF⟩ = true ∧ deviceCode A (wr 0 0) = 0) ∧
    (carries (start T) (wr 0 3) ⟨0, 3, 0xF⟩ = true ∧ deviceCode T (wr 0 3) = 3) ∧
    (carries (start A) (wr 0 255) ⟨0, 255, 0xF⟩ = true ∧ deviceCode A (wr 0 255) = 255) ∧
    (carries (start A) (wr 0 1) ⟨0, 1, 0xF⟩ = true ∧ deviceCode A (wr 0 1) = 1) ∧
    (carries (start T) (wr 0 2) ⟨0, 2, 0xF⟩ = true ∧ deviceCode T (wr 0 2) = 2) ∧
    (carries (start T) (wrLanes 0 0xE 1) ⟨0, 1, 0xE⟩ = true ∧ lane 0xE 0 = false) ∧
    carries (start A) (wrLanes 0 0xE 1) ⟨0, 1, 0xE⟩ = true := by decide +kernel

theorem witness_StopBeginsTheStop :
    let A := inMode .active
    (start A).loader.mode = .active ∧ carries (start A) (wr 0 2) ⟨0, 2, 0xF⟩ = true ∧ lane 0xF 0 = true ∧
      deviceCode A (wr 0 2) = 2 := by decide +kernel

/-- ACTIVE with entry 5 queued on link 2, staged on slot 3 of link 1, entry 6 held by station 9, staged on slot 4, and
slot 2 of link 1 ready. -/
def holding : State :=
  let s := (withStation { stationIn .departing with holdList := [6] }).setEntry 5 (frame .queued)
  let s := (s.setEntry 6 { frame .held with staging := some (.radioA, 4) }).setQueue .radioB .bulk [5]
  s.setLink .radioA { s.link .radioA with ready := [2] }

theorem witness_StopBeginsTheStop_frames :
    let u := start holding
    let d := forEach actActive (goodWords u (wr 0 2)) (merged u (wr 0 2))
    carries u (wr 0 2) ⟨0, 2, 0xF⟩ = true ∧ bits (shadowWord d 0) 0 8 = 2 ∧
    allLinks.flatMap (fun l => allClasses.flatMap (fun c => d.queue l c)) = [5] ∧
    allStations.flatMap (fun st => (d.station st).holdList) = [6] ∧ ([5] ++ [6]).Nodup := by decide +kernel

/-- The single-lane writes of lane 3 that wait in the own stream, by address and data. -/
def laneWrites (s : State) : List (Nat × Word) :=
  s.bus.own.filterMap (fun o => match o.access with
    | .write a [b] => if b.mask = 0x8 then some (a, b.beat.data) else none
    | _ => none)

/-- R23: a ready, a queued and a held frame go out RETURNED, in that order, and both entries are freed. -/
theorem test_stop_returns_frames :
    let t := beginStop holding
    laneWrites t = [(0x11005C, 0x20000000), (0x11007C, 0x20000000), (0x11009C, 0x20000000)] ∧
      t.admission.freeSet = [0, 1, 5, 6] ∧ t.loader.mode = .transparent := by decide +kernel

/-- R176, 11.4: STOPPED by timeout with two abandoned; by a normal end with none. -/
theorem test_stopped_record :
    eventWords (.stopped true 2) = [0x00010016, 2] ∧ eventWords (.stopped false 0) = [0x00000016, 0] := by decide

/-- STOPPING with the stop timer at a millisecond. -/
def stopping (t : Ms) : State :=
  { inMode .stopping with loader := { (inMode .stopping).loader with stopTimer := some t } }

theorem witness_StopTimeoutAbandonsAndEnds :
    ((start (stopping 0)).loader.mode = .stopping ∧
      (start (stopping 0)).loader.stopTimer = some (start (stopping 0)).clock.now) ∧
    (start (stopping 1)).loader.stopTimer ≠ some (start (stopping 1)).clock.now := by decide +kernel

/-! ### Witnesses: the bus path -/

/-- `n` writes in the write buffer. -/
def buffered (n : Nat) (s : State) : State :=
  { s with bus := { s.bus with forwarded := (List.range n).map (fun k => ⟨k, .write 0 []⟩), nextForwarded := n } }

/-- Station 9 with an operation under way. -/
def operating (o : Operation) (h : HandoffState) : State := withStation { stationIn h with operation := o }

theorem witness_WritesAreRefusedWithRetry :
    isBlock (wr 0x500000 0).beats.length = true ∧
    retryDue (start (buffered 8 (inMode .active))) (wr 0x500000 0) = true ∧
    retryDue (start (buffered 7 (inMode .active))) (wr 0x500000 0) = false ∧
    retryDue (start (operating .sweep .departing)) (wr 0x227C 0) = true ∧
    retryDue (start (operating .idle .departing)) (wr 0x227C 0) = false ∧
    retryDue (start (inMode .loading)) (wr 0 1) = true ∧ retryDue (start (inMode .stopping)) (wr 0 1) = true ∧
    isBlock wrNone.beats.length = false := by decide +kernel

/-- LOADING with a load whose read at an offset is in flight. -/
def loadingAt (off : Nat) : State :=
  { inMode .loading with
    bus := { State.reset.bus with outstanding := [⟨.load off, 8, true⟩] }
    loader := { (inMode .loading).loader with
      load := some { next := off + 32, reading := some off, copy := [], held := [] } } }

theorem witness_WatchedWritesAreForwardedAndMerged :
    (accepts (start (inMode .active)) (wr 0x500000 0) = true ∧
      regionOf (start (inMode .active)) (writeStart (wr 0x500000 0)) = .plain) ∧
    (let u := start (inMode .active)
     accepts u (wr 0x0C0 0x400012C) = true ∧ inPolicy u (wr 0x0C0 0x400012C) = true ∧ u.loader.mode = .active ∧
       (goodWords u (wr 0x0C0 0x400012C)).all inert = true) ∧
    (let u := start (inMode .stopping)
     accepts u (wr 0x184 4) = true ∧ inPolicy u (wr 0x184 4) = true ∧ u.loader.mode = .stopping ∧
       ∀ p ∈ goodWords u (wr 0x184 4), p.off ≠ 0x138 ∧ p.off ≠ 0x140) ∧
    (let u := start (loadingAt 0x180)
     u.loader.mode = .loading ∧ u.loader.load.isSome = true ∧ accepts u (wr 0x184 4) = true ∧
       inPolicy u (wr 0x184 4) = true ∧ ∀ p ∈ goodWords u (wr 0x184 4), p.off ≠ 0x008 ∧ p.off ≠ 0x140) := by
  decide +kernel

/-- R149, R150: a block of two beats at a misaligned address, its first beat marked RESPONSE. -/
def twoBeats : UpWrite :=
  { addr := 0x50000C, mask := 1, beats := [⟨1, true, true, true⟩, ⟨2, false, false, true⟩] }

theorem test_block_aligned_lanes_flags :
    isBlock twoBeats.beats.length = true ∧ writeStart twoBeats = 0x500008 ∧
    forwardedBeats twoBeats = [⟨⟨1, true, true, false⟩, 0xF⟩, ⟨⟨2, false, false, true⟩, 0xF⟩] ∧
    writtenWords twoBeats = [⟨0x500008, 1, 0xF, false⟩, ⟨0x50000C, 2, 0xF, true⟩] ∧
    forwardedBeats (wrLanes 0x500004 5 9) = [⟨⟨9, true, false, true⟩, 5⟩] := by decide +kernel

/-- One item at the head of each stream. -/
def streams (f : List ForwardedItem) (o : List OwnItem) (g : Stream) : State :=
  { inMode .active with bus := { State.reset.bus with forwarded := f, own := o, lastGranted := g } }

theorem witness_TheArbiterAlternates :
    let wri : ForwardedItem := ⟨0, .write 64 []⟩
    let rd (k : Nat) : ForwardedItem := ⟨0, .read 5 64 1 k⟩
    let own : OwnItem := ⟨0, 0, .producerIndex⟩
    let u (f : List ForwardedItem) (o : List OwnItem) (g : Stream) := start (streams f o g)
    granted (u [] [] .own) = none ∧ granted (u [wri] [own] .forwarded) = some .own ∧
    granted (u [] [own] .own) = some .own ∧ granted (u [wri] [own] .own) = some .forwarded ∧
    granted (u [rd 0] [own] .own) = some .forwarded ∧ granted (u [rd 1] [own] .own) = some .own ∧
    granted (u [wri] [⟨0, 1, .loadRead 0⟩] .forwarded) = some .forwarded := by decide +kernel

/-- A write-back that finds none of its kind waiting, and one that finds one behind another's. -/
theorem witness_TheArbiterAlternates_joins :
    (∀ i ∈ (streams [] [⟨0, 0, .producerIndex⟩] .own).bus.own,
      isStatusOf 9 i.access = false ∧ isUpdateStatus i.access = false) ∧
    (streams [] [⟨0, 0, .stationStatus 8 1⟩, ⟨1, 0, .stationStatus 9 1⟩] .own).bus.own =
      [⟨0, 0, .stationStatus 8 1⟩] ++ ⟨1, 0, .stationStatus 9 1⟩ :: [] ∧ (8 : StationId) ≠ 9 ∧
    (streams [] [⟨0, 0, .producerIndex⟩, ⟨1, 0, .updateStatus 2⟩] .own).bus.own =
      [⟨0, 0, .producerIndex⟩] ++ ⟨1, 0, .updateStatus 2⟩ :: [] ∧ isUpdateStatus .producerIndex = false := by
  decide +kernel

theorem witness_OwnGrantsCarryTheirWordsAndNoneWrites :
    (streams [] [⟨3, 2, .stationStatus 9 1⟩] .own).bus.own = ⟨3, 2, .stationStatus 9 1⟩ :: [] ∧
    (streams [] [⟨3, 2, .fill 9 0x6000 []⟩] .own).bus.own = ⟨3, 2, .fill 9 0x6000 []⟩ :: [] := ⟨rfl, rfl⟩

theorem witness_OwnGrantsCarryTheirWordsAndNoneWrites_joined :
    (streams [] [⟨3, 2, .updateStatus 1⟩, ⟨4, 2, .stationStatus 9 1⟩] .own).bus.own.map OwnItem.access =
      [.updateStatus 1] ++ .stationStatus 9 1 :: [] ∧ eight[7]? = some 8 ∧
    (inMode .active).loader.lastCommand.toNat ≤ 2 := by decide

/-- R73, 11.2: RESIDENT, OPEN, 90 bonus minutes, −75 dBm, 1000 us; and 11.3: ACTIVE after an accepted RUN. -/
theorem test_status_areas :
    stationStatusWords { stationIn .resident with bonus := 90, signal := some (-1200), usage := 1000 } =
      [0x00010100, 0xFB50005A, 1000, 0] ∧
    deviceStatusWord { inMode .active with loader := { (inMode .active).loader with
      lastCommand := 1, lastResult := .accepted } } = 0x16 := by decide +kernel

/-- A mode with one read outstanding. -/
def waitingFor (o : ReadOwner) (n : Nat) (live : Bool) (s : State) : State :=
  { s with bus := { s.bus with outstanding := [⟨o, n, live⟩] } }

theorem witness_ForwardedReadsAnswerInRequestOrder :
    (start (waitingFor (.forwarded 5) 8 true (inMode .active))).bus.outstanding =
      [⟨.forwarded 5, (answer eight true).length, true⟩] ∧
    (start (waitingFor (.forwarded 5) 8 false (inMode .active))).bus.outstanding =
      [⟨.forwarded 5, (answer eight true).length, false⟩] := by decide +kernel

/-! ### Witnesses: staging and admission -/

theorem witness_StagingWritesReportReadiness :
    let u (m : Mode) := start (inMode m)
    (∀ m ∈ [Mode.loading, .active, .stopping], accepts (u m) (wr 0x11007C 0x01010000) = true ∧
      regionOf (u m) (writeStart (wr 0x11007C 0x01010000)) = .staging .radioA 3 7) ∧
    isReadyReport 0x01010000 0xF = true ∧ isReadyReport 0x01010000 0xB = false ∧
    (accepts (u .active) (wrBad 0x11007C) = true ∧
      regionOf (u .active) (writeStart (wrBad 0x11007C)) = .staging .radioA 3 7) ∧
    slotOwned ((inMode .active).setEntry 5 (frame .queued)) .radioA 3 = true := by decide +kernel

/-- Link 1 in ACTIVE mode with its cursor on slot 3. -/
def link1 (f : LinkState → LinkState) (m : Mode) : State :=
  (inMode m).setLink .radioA (f { LinkState.initial with cursor := 3, overhead := some 92, defaultRate := some 60 })

theorem witness_AdmissionReadsAreIssuedAtTheCursor :
    let u := start (link1 (fun x => { x with ready := [3] }) .active)
    (u.loader.mode = .active ∧ (u.link .radioA).cursor ∈ (u.link .radioA).ready ∧
      slotOwned u .radioA (u.link .radioA).cursor = false ∧ (u.link .radioA).admissionRead = none ∧
      (u.link .radioA).stall = none) ∧
    (u.link .wired).cursor ∉ (u.link .wired).ready := by decide +kernel

/-- The admission read of slot 3 of link 1 in flight. -/
def admitting (m : Mode) (free : List Nat) (live : Bool) : State :=
  let s := waitingFor (.admission .radioA) 8 live (link1 (fun x => { x with admissionRead := some 3 }) m)
  { s with admission := { s.admission with freeSet := free } }

theorem witness_AdmissionReadsReturn :
    (start (admitting .active [] false)).bus.outstanding = [⟨.admission .radioA, (answer eight true).length, false⟩] ∧
    (∀ x ∈ [(Mode.active, []), (.active, [0, 1]), (.stopping, [0])], let u := start (admitting x.1 x.2 true)
      u.bus.outstanding = [⟨.admission .radioA, (answer eight true).length, true⟩] ∧
      (u.link .radioA).admissionRead = some 3 ∧ u.loader.mode = x.1 ∧ u.admission.freeSet = x.2) ∧
    ¬ (∀ b ∈ answer eight false, b.good = true) ∧ ∀ b ∈ answer eight true, b.good = true := by decide +kernel

/-- A descriptor of station 9, 100 bytes, hint BULK. -/
def descriptor (station : Nat) : List Word := [0, 0, 0, 0, 0, BitVec.ofNat 32 station, 0x1234, 0x8064]

/-- A flow entry that hits it: valid, link 1, any station. -/
def withFlow (s : State) : State := { s with shadow := [(0x400, 0x1234), (0x401, 0x80008002)] }

theorem witness_FramesAreClassifiedAndPlaced :
    bits (wordAt eight 7) 0 14 ≠ 0 ∧ bits (wordAt [0] 7) 0 14 = 0 ∧ bits (wordAt (descriptor 9) 7) 0 14 = 100 ∧
    flowHit (withFlow (inMode .active)) 0x1234 .radioA none = true ∧
    flowHit (inMode .active) 0x1234 .radioA none = false ∧
    classStation (inMode .active) (descriptor 9) = none ∧
    classStation (withStation (stationIn .resident)) (descriptor 9) = some 9 ∧
    (let x := (withStation { stationIn .resident with access := some .blocked }).station 9
     x.access = some .blocked ∧ x.handoff = some .resident) ∧
    ((withStation (stationIn .departing)).station 9).handoff = some .departing ∧
    (∀ h ∈ [HandoffState.resident, .forwarding, .releasing, .absent], let x := (withStation (stationIn h)).station 9
      draining x = false ∧ x.holdList = [] ∧ x.handoff = some h ∧ x.access = some .openAccess) ∧
    ((withStation { stationIn .forwarding with holdList := [4] }).station 9).holdList ≠ [] ∧
    draining ((operating .returnDrain .resident).station 9) = true := by decide +kernel

/-- Link 1 with a low-water mark, a count of queued direct entries, and its flag. -/
def marked (mark n : Nat) (armed : Bool) (m : Mode) : State :=
  { link1 (fun x => { x with directQueued := n, lowArmed := armed }) m with
    shadow := if mark = 0 then [] else [(0x104 / 4, BitVec.ofNat 32 mark)] }

/-- Free entries to take; a count at, above and below the mark, one above its range, and a mark of 0; a pool in
canonical form. -/
theorem witness_FramesAreClassifiedAndPlaced_lists :
    (inMode .active).admission.freeSet = 0 :: [1] ∧
    (∀ x ∈ [(3, 3), (3, 4), (1024, 1024), (2000, 1024)], let v := marked x.1 0 false .active
      v.loader.mode = .active ∧ min 1024 (bits (shadowWord v (0x100 + 4 * linkNumber .radioA)) 0 16) ≠ 0 ∧
      min 1024 (bits (shadowWord v (0x100 + 4 * linkNumber .radioA)) 0 16) ≤ x.2) ∧
    (∀ a ∈ [true, false], let v := marked 3 3 a .active
      2 < min 1024 (bits (shadowWord v (0x100 + 4 * linkNumber .radioA)) 0 16) ∧ (v.link .radioA).lowArmed = a) ∧
    min 1024 (bits (shadowWord (marked 0 0 true .active) (0x100 + 4 * linkNumber .radioA)) 0 16) = 0 ∧
    (marked 3 0 true .stopping).loader.mode ≠ .active ∧
    (∀ n ∈ [0, 3], let t : Table Entry := (List.range n).map (fun k => (k, frame .held))
      Table.wf .unused t = true ∧ ∀ c ∈ t, c.1 < 2048) := by decide +kernel

/-- A stalled link 1, a release and free entries. -/
def stalled (releases : Nat) : State :=
  let s := link1 (fun x => { x with stall := some (descriptor 200) }) .active
  { s with admission := { s.admission with releases := releases } }

theorem witness_ReleasesServeStalledLinksInRotation :
    (let q : State := { stalled 1 with out := [] }
     q.loader.mode = .active ∧ 0 < q.admission.releases ∧ q.admission.freeSet = 0 :: [1] ∧
     Link.radioA = linkOf (linkNumber q.admission.lastServed + 2) ∧ (q.link .radioA).stall = some (descriptor 200) ∧
     ∀ j ∈ [1], (q.link (linkOf (linkNumber q.admission.lastServed + j))).stall = none) ∧
    (stalled 0).admission.releases = 0 ∧ (inMode .stopping).loader.mode ≠ .active := by decide +kernel

/-- Station 9 waiting in a phase, with busy buffers and one release. -/
def waitingIn (p : MarkerPhase) (busy : List Nat) : State :=
  let s := withStation { stationIn .releasing with markerPhase := p, markerBuffer := some 0 }
  { s with
    admission := { s.admission with releases := 1 }
    handoff := { busyBuffers := busy, pendingMarkers := [9] } }

/-- A stall with a release, a station that waits for an entry, one that waits for a buffer, and no one who waits. -/
theorem witness_DueServicesAreTakenFirst :
    (let q : State := { stalled 1 with out := [] }
     q.loader.mode = .active ∧ 0 < q.admission.releases ∧ q.admission.freeSet ≠ [] ∧ (q.link .radioA).stall ≠ none) ∧
    (let q : State := { waitingIn .waitEntry [0] with out := [] }
     q.loader.mode = .active ∧ 0 < q.admission.releases ∧ q.admission.freeSet ≠ [] ∧
       (∀ l ∈ allLinks, (q.link l).stall = none) ∧
       (9 : StationId) ∈ q.handoff.pendingMarkers ∧ (q.station 9).markerPhase = .waitEntry) ∧
    (let q : State := { waitingIn .waitBuffer [0, 1] with out := [] }
     (∀ l ∈ allLinks, (q.link l).stall = none) ∧
       (∀ st ∈ q.handoff.pendingMarkers, (q.station st).markerPhase ≠ .waitEntry) ∧
       q.loader.mode = .active ∧ 2 < 8 ∧ 2 ∉ q.handoff.busyBuffers ∧
       (9 : StationId) ∈ q.handoff.pendingMarkers ∧ (q.station 9).markerPhase = .waitBuffer) ∧
    (let q : State := { inMode .active with out := [] }
     (∀ l ∈ allLinks, (q.link l).stall = none) ∧ q.handoff.pendingMarkers = []) ∧
    serviceDue { State.reset with out := [] } = false := by decide +kernel

/-- The lowest free buffer goes to the station that waits (R119). -/
theorem test_start_serves_a_buffer :
    ((start (waitingIn .waitBuffer [0, 1])).station 9).markerPhase = .filling ∧
      (start (waitingIn .waitBuffer [0, 1])).handoff.busyBuffers = [0, 1, 2] := by decide +kernel

/-- A FORWARDED entry of a station with its counts and stamp, a DIRECT one, one of no station, and who waits. -/
theorem witness_ReleasesServeStalledLinksInRotation_free :
    (∀ x ∈ [(0, 1), (1, 0), (1, 1)], let y : Station := { stationIn .releasing with
        carriedCount := x.1, forwardCount := x.2, validationStamp := 5 }
      let v := (withStation y).setEntry 7 { frame .inFlight with origin := .forwarded, stamp := 4 }
      (v.entry 7).origin = .forwarded ∧ (v.entry 7).station = some 9 ∧ (v.station 9).carriedCount = x.1 ∧
        (v.station 9).forwardCount = x.2) ∧
    (frame .inFlight).origin ≠ .forwarded ∧ Entry.unused.station = none ∧
    ((stalled 0).link .radioA).stall ≠ none ∧
    (let w := waitingIn .waitEntry [0]
     (9 : StationId) ∈ w.handoff.pendingMarkers ∧ (w.station 9).markerPhase = .waitEntry) ∧
    (∀ l ∈ allLinks, ((inMode .active).link l).stall = none) ∧ (inMode .active).handoff.pendingMarkers = [] := by
  decide +kernel

/-! ### Witnesses: the scheduler -/

theorem witness_CostsAndChargesFollowTheTables :
    (0 < 433 ∧ 80 * 1500 = 433 * 277 + 59 ∧ 59 < 433) ∧ (0 < 800 ∧ 80 * 100 = 800 * 10 + 0 ∧ 0 < 800) ∧
    ((frame .inFlight).station = some 9 ∧ (frame .inFlight).origin ≠ .marker) ∧
    ({ frame .inFlight with origin := .marker } : Entry).origin = .marker := by decide

/-- A read list of `n` forwarded reads. -/
def reading (n : Nat) (s : State) : State :=
  { s with bus := { s.bus with
      reads := (List.range n).map (fun k => ⟨k, 0, 64, 1, .forwarded⟩), nextRead := n } }

theorem witness_UpstreamReadsAreListedAndClassified :
    isBlock 8 = true ∧ isBlock 3 = false ∧
    (start (reading 8 (inMode .active))).bus.reads.length = 8 ∧
    ((start (reading 7 (inMode .active))).bus.reads.length < 8 ∧
      (start (reading 7 (inMode .active))).bus.portReads = []) ∧
    (start { inMode .active with bus := { State.reset.bus with portReads := [⟨0, 1⟩] } }).bus.portReads = [⟨0, 1⟩] ∧
    (regionOf (start (inMode .active)) 0x200020 = .egress .wired 1 0 ∧
      regionOf (start (inMode .active)) 0x500000 = .plain ∧
      regionOf (start (inMode .loading)) 0x200020 = .egress .wired 1 0) ∧
    (let s : State := { inMode .active with bus := { State.reset.bus with
       reads := [⟨0, 0, 64, 1, .forwarded⟩, ⟨1, 0, 0x200000, 8, .waiting .wired 0 0⟩] } }
     ((start s).link .wired).answering = none ∧ (start s).bus.reads =
       [⟨0, 0, 64, 1, .forwarded⟩] ++ ⟨1, 0, 0x200000, 8, .waiting .wired 0 0⟩ :: []) := by decide +kernel

/-- The regions at their first and last words (R128, R154, R166, R172). -/
theorem test_regions_at_their_ends :
    let A := inMode .active
    let I : State := { A with image := { A.image with base := 0x400000, session := .opened, count := 4, capacity := 4 } }
    (∀ x ∈ [(0, Region.policy 0), (0x3FFFC, .policy 0x3FFFC), (0x40000, .plain), (0xFFFFC, .plain),
        (0x100000, .staging .wired 0 0), (0x1001FC, .staging .wired 15 7), (0x100200, .plain),
        (0x230000, .egress .backhaul 0 0), (0x3101FC, .receive .radioA 15 7), (0x400000, .plain)],
      regionOf A x.1 = x.2) ∧
    (∀ x ∈ [(0x3FFFFC, Region.plain), (0x400000, .image 0), (0x400FFC, .image 0xFFC), (0x401000, .plain)],
      regionOf I x.1 = x.2) ∧
    regionOf { I with image := { I.image with session := .closed } } 0x400000 = .plain ∧
    (∀ x ∈ [(0, Region.policy 0), (4, .plain), (0x100000, .plain)], regionOf (inMode .transparent) x.1 = x.2) ∧
    regionOf { inMode .loading with loader := { (inMode .loading).loader with map := none } } 0x100000 = .plain := by
  decide +kernel

/-- Ring 6, the receive ring of link 1, and ring 0 are the first that hold an address of theirs, at either end; no ring
holds the address after ring 0. -/
theorem witness_UpstreamReadsAreListedAndClassified_rings :
    (∀ x ∈ [(0x100000, 0), (0x1001FC, 0), (0x310000, 6), (0x3101FC, 6)],
      FirstArea (fun n => IsRing n ∧ areaBase rings n ≤ x.1 ∧ x.1 < areaBase rings n + areaBytes rings n) x.2) ∧
    (∀ n, ¬ (IsRing n ∧ areaBase rings n ≤ 0x100200 ∧ 0x100200 < areaBase rings n + areaBytes rings n)) ∧
    ((inMode .active).loader.map = some rings ∧ (inMode .active).loader.mode ≠ .transparent ∧
      ¬ (policyBase (inMode .active) ≤ 0x100000 ∧ 0x100000 < policyBase (inMode .active) + 0x40000)) := by
  refine ⟨?_, ?_, rfl, nofun, by decide⟩
  · intro x hx
    refine ⟨by revert x; unfold IsRing; decide +kernel, fun k hk => ?_⟩
    have h : ∀ k, k < 16 → ∀ x ∈ [(0x100000, 0), (0x1001FC, 0), (0x310000, 6), (0x3101FC, 6)],
        areaBase rings k ≤ x.1 → x.1 < areaBase rings k + areaBytes rings k → x.2 ≤ k := by decide +kernel
    exact h k hk.1.1 x hx hk.2.1 hk.2.2
  · intro n hn
    have h : ∀ n, n < 16 → ¬ (areaBase rings n ≤ 0x100200 ∧ 0x100200 < areaBase rings n + areaBytes rings n) := by
      decide +kernel
    exact h n hn.1.1 hn.2

/-- Link 2 with slot 4 in flight, its answer given or not. -/
def flying (c : Option (List Word)) (e : Entry) (m : Mode) : State :=
  ((inMode m).setLink .radioB { LinkState.initial with inFlight := [⟨4, 7, c⟩], answerCursor := 5 }).setEntry 7 e

/-- R51, 11.1: length 1500, BULK, entry 7, DIRECT, owner MAC. -/
theorem test_egress_control_word :
    egressControlWord (flying none (frame .inFlight) .active) 7 = 0x800785DC := by decide +kernel

/-- R150: LAST on the final beat alone, RESPONSE and GOOD on each. -/
theorem test_answer_beats : answerBeats [1, 2] = [⟨1, false, true, true⟩, ⟨2, true, true, true⟩] := by decide

theorem witness_EgressReadsAreTreatedByTheirSlot :
    (∀ m ∈ [Mode.active, .stopping], let v := flying (some [1, 2, 3, 4, 5, 6, 7]) (frame .inFlight) m
      v.loader.mode = m ∧ (v.link .radioB).inFlight.find? (fun f => f.slot = 4) = some ⟨4, 7, some [1, 2, 3, 4, 5, 6, 7]⟩ ∧
      (v.link .radioB).inFlight.find? (fun f => f.slot = 5) = none) ∧
    ((flying none (frame .inFlight) .active).link .radioB).answerCursor = 5 ∧
    (flying none (frame .inFlight) .loading).loader.mode = .loading ∧
    (flying none (frame .inFlight) .transparent).loader.mode = .transparent := by decide +kernel

/-- Entry 5 of station 9 queued BULK on link 2, with link 2's tokens and the station as given. -/
def queuedOn (x : Station) (t : Int) (c : Cls) : State :=
  let s := ((withStation x).setEntry 5 { frame .queued with cls := c }).setQueue .radioB c [5]
  s.setLink .radioB { s.link .radioB with tokens := t, directQueued := 1 }

theorem witness_HeadCleanupFollowsItsTable :
    (∀ h ∈ [HandoffState.resident, .departing, .forwarding, .releasing, .absent, .arriving],
      let v := queuedOn (stationIn h) 0 .bulk
      v.queue .radioB .bulk = 5 :: [] ∧ (v.entry 5).origin = .direct ∧ (v.entry 5).station = some 9 ∧
        (v.station 9).handoff = some h ∧ (v.station 9).access = some .openAccess) ∧
    (let v := queuedOn { stationIn .resident with access := some .paused } 0 .bulk
     v.queue .radioB .bulk = 5 :: [] ∧ (v.entry 5).exempt = false ∧ (v.station 9).access = some .paused ∧
       (v.entry 5).staging = some (.radioA, 3)) := by decide +kernel

theorem witness_PullsServeGameStrictlyThenRotate :
    let clean (v : State) := cleanHeads .radioB v
    ((clean (queuedOn (stationIn .resident) 1 .game)).queue .radioB .game = 5 :: [] ∧
      0 < ((clean (queuedOn (stationIn .resident) 1 .game)).link .radioB).tokens) ∧
    (let c := clean (queuedOn (stationIn .resident) 0 .bulk)
     c.queue .radioB .game = [] ∧
      (rotation (classViews c .radioB) (c.link .radioB).credits (c.link .radioB).pointer).isSome = true) ∧
    (let c := clean (inMode .active)
     c.queue .radioB .game = [] ∧
      rotation (classViews c .radioB) (c.link .radioB).credits (c.link .radioB).pointer = none) ∧
    (queuedOn (stationIn .resident) 1 .game).queue .radioB .game = 5 :: [] ∧
    ((queuedOn (stationIn .resident) 1 .game).game.active = false ∧
      (queuedOn (stationIn .resident) 1 .game).loader.mode = .active) ∧
    (frame .queued).staging = some (.radioA, 3) ∧
    ({ frame .queued with origin := .marker, marker := some (2, 7) } : Entry).marker = some (2, 7) := by decide +kernel

/-- R52, R62, R144: the choice of the marker in buffer 2 answers the read at once, with the buffer's address, six zeros
and the egress control word (length 64, GAME, entry 5, MARKER, owner MAC), and shows the gate that a game is on. -/
theorem test_marker_answered_at_once :
    let e : Entry := { frame .queued with
      origin := .marker, staging := none, marker := some (2, 7), cls := .game, length := 64 }
    let t := chooseHead .radioB ⟨0, 4, 0, 8⟩ .game (reading 1 ((queuedOn (stationIn .releasing) 1 .game).setEntry 5 e))
    t.out = [.readAnswer (answerBeats [0x6100, 0, 0, 0, 0, 0, 0, 0x90050040])] ∧ t.bus.reads = [] ∧
      t.gate.reasons.game = true := by decide +kernel

/-- Views of four classes of the same eligibility. -/
def views (eligible empty : Bool) (cost : Nat) : PerClass ClassView :=
  let x : ClassView := ⟨eligible, empty, cost, 64⟩
  ⟨x, x, x, x⟩

theorem witness_RotationVisitsFollowTheTable :
    ((views true false 0).get .game).eligible = true ∧ ((0 : Nat) : Int) ≤ (⟨0, 0, 0, 0⟩ : PerClass Int).get .game ∧
    (⟨0, 0, 0, 0⟩ : PerClass Int).get .game < ((1 : Nat) : Int) ∧
    (((views false true 0).get .game).eligible = false ∧ ((views false true 0).get .game).empty = true) ∧
    (((views false false 9).get .game).eligible = false ∧ ((views false false 9).get .game).empty = false) := by decide

theorem witness_TheRotationAlwaysChooses :
    (∀ d, ((views false true 0).get d).eligible = false) ∧ ((views true false 65535).get .update).eligible = true ∧
    (∀ d, ((views true false 65535).get d).cost ≤ 65535 ∧ 64 ≤ ((views true false 65535).get d).quantum ∧
      -65536 ≤ (⟨-65536, 65535, 0, 0⟩ : PerClass Int).get d ∧ (⟨-65536, 65535, 0, 0⟩ : PerClass Int).get d ≤ 65535) ∧
    ((cleanHeads .radioB (inMode .active)).queue .radioB .game = [] ∧
      ∀ d, (classView (cleanHeads .radioB (inMode .active)) .radioB d).eligible = false) := by
  refine ⟨?_, by decide, ?_, by decide +kernel, ?_⟩ <;> intro d <;> cases d <;> decide +kernel

/-- The staging read of an answer in flight on link 2. -/
def answering (live : Bool) : State :=
  let s := waitingFor (.answer .radioB) 8 live (flying none (frame .inFlight) .active)
  s.setLink .radioB { s.link .radioB with answering := some ⟨0, 4, 7, 0, 8⟩ }

theorem witness_AnswerReadsGiveOrFailTheAnswer :
    (start (answering false)).bus.outstanding = [⟨.answer .radioB, (answer eight true).length, false⟩] ∧
    ((start (answering true)).bus.outstanding = [⟨.answer .radioB, (answer eight true).length, true⟩] ∧
      ((start (answering true)).link .radioB).answering = some ⟨0, 4, 7, 0, 8⟩) ∧
    (∀ b ∈ answer eight true, b.good = true) ∧ (∃ b ∈ answer eight false, b.good = false) ∧
    ((start (answering true)).entry 7).staging = some (.radioA, 3) := by decide +kernel

theorem witness_EgressWritesComplete :
    let u (c : Option (List Word)) (m : Mode) := start (flying c (frame .inFlight) m)
    (accepts (u none .loading) (wr 0x22009C 0) = true ∧
      regionOf (u none .loading) (writeStart (wr 0x22009C 0)) = .egress .radioB 4 7) ∧
    (accepts (u none .active) (wr 0x220080 0) = true ∧
      regionOf (u none .active) (writeStart (wr 0x220080 0)) = .egress .radioB 4 0 ∧
      (writtenWords (wr 0x220080 0))[7 - 0]? = none) ∧
    ((writtenWords (wrBad 0x22009C))[7 - 7]?.map WrittenWord.good = some false ∧
      regionOf (u none .active) (writeStart (wrBad 0x22009C)) = .egress .radioB 4 7) ∧
    ((writtenWords (wr 0x22009C 0))[7 - 7]?.map WrittenWord.good = some true ∧
      ((u none .active).link .radioB).inFlight.find? (fun f => f.slot = 4) = some ⟨4, 7, none⟩ ∧
      regionOf (u none .active) (writeStart (wr 0x2200BC 0)) = .egress .radioB 5 7 ∧
      ((u none .active).link .radioB).inFlight.find? (fun f => f.slot = 5) = none) ∧
    (∀ m ∈ [Mode.active, .stopping], accepts (u (some eight) m) (wr 0x22009C 0x13000000) = true ∧
      regionOf (u (some eight) m) (writeStart (wr 0x22009C 0x13000000)) = .egress .radioB 4 7 ∧
      ((u (some eight) m).link .radioB).inFlight.find? (fun f => f.slot = 4) = some ⟨4, 7, some eight⟩ ∧
      ((u (some eight) m).entry 7).origin ≠ .marker ∧ ((u (some eight) m).entry 7).staging = some (.radioA, 3)) ∧
    lane 0xF 3 = true ∧ lane 0x7 3 = false := by decide +kernel

/-- A marker entry of station 9. -/
def markerEntry (e : EntryState) : Entry := { frame e with origin := .marker, staging := none, marker := some (2, 7) }

theorem witness_MarkersAreSentUpToThreeTimes :
    (∀ m ∈ [Mode.active, .stopping], ∀ n ∈ [0, 2],
      let u := start ((flying (some eight) (markerEntry .inFlight) m).setStation 9
        { stationIn .releasing with markerPhase := .sending, markerBuffer := some 2, markerSends := n })
      accepts u (wr 0x22009C 0x10000000) = true ∧
      regionOf u (writeStart (wr 0x22009C 0x10000000)) = .egress .radioB 4 7 ∧ u.loader.mode = m ∧
      (u.link .radioB).inFlight.find? (fun f => f.slot = 4) = some ⟨4, 7, some eight⟩ ∧
      (u.entry 7).origin = .marker ∧ (u.entry 7).station = some 9 ∧ (u.station 9).markerSends = n) ∧
    (writtenWords (wr 0x22009C 0x10000000))[7 - 7]? = some ⟨0x22009C, 0x10000000, 0xF, true⟩ ∧
    bit 0x10000000 28 = true ∧ bit 0x03000000 28 = false ∧ lane 0xF 3 = true := by decide +kernel

/-! ### Witnesses: receive control words, commits -/

theorem witness_ReceiveWritesAreInspectedAndFiltered :
    let u (m : Mode) := start (inMode m)
    (accepts (u .active) (wr 0x300000 0) = true ∧
      regionOf (u .active) (writeStart (wr 0x300000 0)) = .receive .wired 0 0 ∧
      (writtenWords (wr 0x300000 0))[7 - 0]? = none) ∧
    (∀ m ∈ [Mode.active, .loading, .stopping], accepts (u m) (wr 0x33001C 0x050109B6) = true ∧
      regionOf (u m) (writeStart (wr 0x33001C 0x050109B6)) = .receive .backhaul 0 7) ∧
    (writtenWords (wr 0x33001C 0x050109B6))[7 - 7]? = some ⟨0x33001C, 0x050109B6, 0xF, true⟩ ∧
    (writtenWords (wrBad 0x33001C))[7 - 7]? = some ⟨0x33001C, 0, 0xF, false⟩ ∧
    filters (withStation { stationIn .resident with access := some .blocked }) 0x000109B6 0xF = true ∧
    filters (withStation (stationIn .resident)) 0x000109B6 0xF = false ∧
    (∀ n ∈ [0, 6, 7], (forwardedBeats { wr 0x33001C 0 with beats := answer eight true })[n]?.isSome = true) ∧
    (forwardedBeats (wr 0x33001C 0x050109B6))[0]?.isSome = true ∧ 7 + 0 = 7 ∧ 0 + 7 = 7 := by decide +kernel

/-- Section 11.1: the status field is bits 26 and 27 of byte lane 3, FILTERED is 1; the other bits stay. -/
theorem test_filtered_word :
    rewriteBeats 6 [⟨⟨0xFFFFFFFF, false, false, true⟩, 0xF⟩, ⟨⟨0xFAFFFFFF, true, false, true⟩, 0x7⟩] =
      [⟨⟨0xFFFFFFFF, false, false, true⟩, 0xF⟩, ⟨⟨0xF6FFFFFF, true, false, true⟩, 0xF⟩] := by decide +kernel

theorem witness_ReceiveWordsSampleMarkAndDetect :
    let v := withStation (stationIn .arriving)
    (lane 0xF 1 = true ∧ bits 0x020009B6 8 8 = 9 ∧ (v.station 9).valid = true) ∧
    (lane 0xF 0 = true ∧ 128 ≤ bits 0x000009B6 0 8 ∧ bits 0x000009B6 24 2 ≠ 2) ∧
    (bits 0x0000097F 0 8 = 127 ∧ lane 0xE 0 = false) ∧
    (lane 0xF 3 = true ∧ bits 0x020009B6 24 2 = 2 ∧ lane 0xF 2 = true ∧ lane 0xB 2 = false) ∧
    ((v.station 9).handoff = some .arriving ∧ (v.station 9).sequence = 0) ∧
    ((withStation (stationIn .resident)).station 9).handoff ≠ some .arriving ∧
    (∀ st : StationId, ¬ (lane 0xD 1 = true ∧ bits 0x020009B6 8 8 = st.val ∧ (v.station st).valid = true)) := by
  decide +kernel

/-- Section 4.8: signal −65 dBm, then a home sample that starts or completes the dwell count of 3. -/
theorem witness_ReceiveWordsSampleMarkAndDetect_hint :
    let y (run : Nat) : Station := { stationIn .resident with signal := some (-1200), dwellRun := run }
    sampleRaises .radioB (y 2) (-90) = true ∧ sampleRaises .radioB (y 1) (-90) = false ∧
      sampleRaises .radioA (y 2) (-90) = false ∧ neighbourOf (y 2).record = some (-58) := by decide +kernel

/-- R186 at the ends of its ranges. -/
theorem test_threshold_and_neighbour :
    (∀ x ∈ [(1, -1), (127, -1), (128, -128), (255, -1)], thresholdOf { record with threshold := x.1 } = x.2) ∧
    (∀ x ∈ [(0, none), (127, none), (128, some (-128)), (255, some (-1))],
      neighbourOf { record with neighbour := x.1 } = x.2) := by decide +kernel

theorem witness_SamplesSmoothTheSignal :
    ((16 * (-72) - (-1147) : Int) = 8 * (-1) + 3 ∧ (0 : Int) ≤ 3 ∧ (3 : Int) < 8) ∧
    ((-128 : Int) ≤ -128 ∧ (-128 : Int) ≤ -1 ∧ ∀ v : Int, some (-16 : Int) = some v → -2048 ≤ v ∧ v ≤ -16) ∧
    (16 * (-72) : Int) < -1147 := by
  refine ⟨by decide, ⟨by decide, by decide, ?_⟩, by decide⟩
  intro v h
  injection h with h
  subst h
  decide

/-- Station 9's pending copy: dwell 3, threshold −70, profile 16, and a control word. -/
def pendingCopy (control : Word) (s : State) : State :=
  { s with shadow := [(0x2248 / 4, 16), (0x224C / 4, 0x030004BA), (0x227C / 4, control)] }

/-- Station 9 as given, and a write of its control word with the rest of the record pending. -/
def committing (x : Station) : State := pendingCopy 0 (withStation x)

/-- The hypotheses of a commit of station 9 with control word `d`, and the request and valid flag of its record. -/
def commits (x : Station) (d : Word) (request : Nat) (valid : Bool) : Bool :=
  let u := start (committing x)
  let r := recordOf (merged u (wr 0x227C d)).shadow 9
  decide (u.loader.mode = .active) && carries u (wr 0x227C d) ⟨0x227C, d, 0xF⟩ &&
    decide (controlWordOf 0x227C = some 9) && decide (r.request = request) && decide (r.valid = valid) &&
    decide (r.dwell ≠ 0) && decide (r.threshold ≠ 0) && decide (r.presence ≤ 1) &&
    decide (((merged u (wr 0x227C d)).station 9) = x)

/-- 11.2: every field of a record from its own bytes. -/
theorem test_record_bytes :
    recordOf [(0x890, 0x14131211), (0x891, 0x18171615), (0x892, 0x1C1B05F3), (0x893, 0x038684BA), (0x894, 0x000001C6),
        (0x89F, 0x00012A07)] 9 =
      { address := 0x161514131211, rate := 0x1817, profile := 0x13, pause := true, home := .radioB, grant := 0x1C1B,
        threshold := 0xBA, hysteresis := 4, margin := 6, dwell := 3, neighbour := 0xC6, presence := 1, request := 7,
        sequence := 0x2A, valid := true } := by decide +kernel

theorem witness_ControlWordWritesAreCommits :
    commits (stationIn .resident) 0x10000 0 true = true ∧ commits (stationIn .resident) 0x10008 8 true = true ∧
    7 < 8 ∧ ({ record with dwell := 0 } : StationRecord).dwell = 0 ∧
    ({ record with threshold := 0 } : StationRecord).threshold = 0 ∧
    (let r : StationRecord := { record with valid := false, request := 1 }
     r.valid = false ∧ r.request ≠ 0) ∧
    (let r : StationRecord := { record with presence := 2 }
     r.valid = true ∧ Station.initial.valid = false ∧ 1 < r.presence) := by decide +kernel

theorem witness_AccessFollowsPauseProfileAndBonus :
    ({ record with pause := true } : StationRecord).pause = true ∧ (record.pause = false ∧ 16 ≤ record.profile) ∧
    (let v : State := { inMode .active with shadow := [(0x4000 / 4, 2)] }
     let r : StationRecord := { record with profile := 0 }
     r.pause = false ∧ r.profile < 16 ∧ profileAllows v r.profile = false ∧ profileAllows v 1 = true) ∧
    (∀ i ∈ [15, 16, 31, 32, 255],
      bits (shadowWord { inMode .active with shadow := [(0x18C / 4, BitVec.ofNat 32 i)] } 0x18C) 0 8 = i) ∧
    (loadedStation StationRecord.blank 3 (stationIn .resident)).valid = false ∧ Station.initial.access = none := by
  decide +kernel

theorem witness_ValidationsStartTheStation :
    commits Station.initial 0x10000 0 true = true ∧ commits Station.initial 0x10007 7 true = true ∧
      Station.initial.valid = false := by decide +kernel

theorem witness_InvalidationsClearTheStation :
    (commits Station.initial 0 0 false = true ∧ Station.initial.valid = false) ∧
    (∀ h ∈ [HandoffState.resident, .absent, .departing, .arriving], commits (stationIn h) 0 0 false = true ∧
      (stationIn h).valid = true ∧ (stationIn h).handoff = some h) := by decide +kernel

/-! ### Witnesses: handoff -/

theorem witness_RequestsAreJudgedByTheHandoffState :
    (∀ x ∈ [(1, HandoffState.resident), (2, .resident), (2, .departing), (3, .departing), (4, .departing),
        (4, .forwarding), (4, .arriving), (5, .forwarding), (6, .absent), (7, .absent), (7, .arriving)],
      commits (stationIn x.2) (BitVec.ofNat 32 (0x10000 + x.1)) x.1 true = true ∧ (stationIn x.2).valid = true ∧
        (stationIn x.2).handoff = some x.2) ∧
    (commits { stationIn .absent with earlyMarker := some 0 } 0x10006 6 true = true ∧
      (recordOf (merged (start (committing (stationIn .absent))) (wr 0x227C 0x10006)).shadow 9).sequence = 0) ∧
    (commits (stationIn .resident) 0x10003 3 true = true ∧ requestOf 3 = some .forward ∧
      (requestEffect .resident .forward 9).isNone = true) ∧
    (commits (stationIn .releasing) 0x10004 4 true = true ∧ requestOf 4 = some .abort ∧
      (requestEffect .releasing .abort 9).isNone = true) := by decide +kernel

/-- Station 9 sweeping, its entry 5 queued on link 2, and the hold list and the held entries as given. -/
def sweeping (held : List Nat) : State :=
  let s := queuedOn { stationIn .departing with operation := .sweep, holdList := held } 0 .bulk
  held.foldl (fun s i => s.setEntry i (frame .held)) s

theorem witness_SweepStepsHoldTheOldestEntry :
    (start (inMode .stopping)).loader.mode ≠ .active ∧
    (let u := start (operating .sweep .departing)
     u.loader.mode = .active ∧ (u.station 9).operation = .sweep ∧
       ∀ l ∈ allLinks, ∀ c ∈ allClasses, u.queue l c = []) ∧
    (let u := start (sweeping [6])
     u.loader.mode = .active ∧ (u.station 9).operation = .sweep ∧ sweepCandidate u 9 = some (.radioB, .bulk, 5) ∧
       5 ∈ u.queue .radioB .bulk ∧ (u.entry 5).station = some 9 ∧ (u.entry 5).origin = .direct ∧
       holdFull u 9 = false ∧ (u.station 9).holdList.Pairwise (fun a b => olderEntry u a b = true)) := by decide +kernel

/-- R5, R7: with the counter at 10 the ages of entries 1, 2 and 3 are 1, 8 and 2, and that of entry 5 is 5. It joins
behind entry 2, the last older one, though entry 1 before that is newer. -/
theorem test_insert_behind_the_last_older :
    let at' (n : Nat) : Entry := { frame .held with stamp := BitVec.ofNat 32 n }
    let s : State := { State.reset with
      admission := { State.reset.admission with stampCounter := 10 }
      entries := [(1, at' 9), (2, at' 2), (3, at' 8), (5, at' 5)] }
    insertByStamp s 5 [1, 2, 3] = [1, 2, 5, 3] := by decide +kernel

/-- The hold limit reached by the list, and the hold budget by others. -/
theorem witness_SweepStepsHoldTheOldestEntry_full :
    (let u := start (sweeping ((List.range 128).map (· + 100)))
     sweepCandidate u 9 = some (.radioB, .bulk, 5) ∧ holdFull u 9 = true ∧
       newestHeld u (u.station 9).holdList = some 227 ∧ olderEntry u 5 227 = true) ∧
    (let s := sweeping [4]
     let u := start { s with entries := s.entries ++ (List.range 511).map (fun k => (k + 100, frame .held)) }
     sweepCandidate u 9 = some (.radioB, .bulk, 5) ∧ holdFull u 9 = true ∧
       newestHeld u (u.station 9).holdList = some 4 ∧ olderEntry u 5 4 = false) ∧
    (let s := queuedOn { stationIn .departing with operation := .sweep } 0 .bulk
     let u := start { s with entries := s.entries ++ (List.range 512).map (fun k => (k + 100, frame .held)) }
     sweepCandidate u 9 = some (.radioB, .bulk, 5) ∧ holdFull u 9 = true ∧ (u.station 9).holdList = []) := by
  decide +kernel

/-- R104: a swept entry counts once, and a held one that it displaces once more. -/
theorem test_sweep_counts_displaced :
    ((takeSweepStep 9 (sweeping [6])).station 9).moved = 1 ∧
      ((takeSweepStep 9 (sweeping ((List.range 128).map (· + 100)))).station 9).moved = 2 := by decide +kernel

theorem witness_DrainStepsPlaceTheHead :
    draining ((operating .idle .resident).station 9) = false ∧
    (∀ o ∈ [Operation.forwardDrain, .returnDrain, .arrivalDrain, .nullifyDrain], ∀ held ∈ [[], [5, 6]],
      let u := start (withStation { stationIn .resident with operation := o, holdList := held })
      u.loader.mode = .active ∧ (u.station 9).operation = o ∧ (u.station 9).holdList = held) ∧
    pointOf (queuedOn (stationIn .resident) 0 .bulk) 9 .radioB .bulk = none ∧
    (let v := movePoint 9 .radioB .bulk 5 (queuedOn (stationIn .resident) 0 .bulk)
     pointOf v 9 .radioB .bulk = some 5 ∧ v.queue .radioB .bulk = [] ++ 5 :: [] ∧ 5 ∉ ([] : List Nat)) := by
  decide +kernel

/-- A fill of station 9 at the port. -/
def filling (m : Mode) (free : List Nat) : State :=
  let s := (inMode m).setStation 9 { stationIn .releasing with markerPhase := .filling, markerBuffer := some 0 }
  { s with
    bus := { s.bus with port := .fill 9 }
    admission := { s.admission with freeSet := free }
    handoff := { busyBuffers := [0], pendingMarkers := [] } }

theorem witness_MarkersTakeBuffersAndEntries :
    (∀ x ∈ [(Mode.active, [0, 1]), (.active, []), (.stopping, []), (.loading, [])],
      let u := start (filling x.1 x.2)
      u.bus.port = .fill 9 ∧ u.loader.mode = x.1 ∧ u.admission.freeSet = x.2) ∧
    (let q := waitingIn .waitBuffer [0, 1]
     q.loader.mode = .active ∧ (∀ a, a < 2 → a ∈ q.handoff.busyBuffers) ∧ 2 ∉ q.handoff.busyBuffers ∧
       q.handoff.pendingMarkers = [] ++ (9 : StationId) :: [] ∧ (q.station 9).markerPhase = .waitBuffer) ∧
    (let q := waitingIn .waitEntry [0]
     q.loader.mode = .active ∧ 0 < q.admission.releases ∧ q.admission.freeSet = 0 :: [1] ∧
       (∀ l ∈ allLinks, (q.link l).stall = none) ∧ q.handoff.pendingMarkers = [] ++ (9 : StationId) :: [] ∧
       (q.station 9).markerPhase = .waitEntry) ∧
    (∀ b, b < 8 → b ∈ (waitingIn .waitBuffer (List.range 8)).handoff.busyBuffers) ∧
    (start (inMode .active)).bus.port = .idle ∧
    (∀ n ∈ [0, 2, 7, 8], let s := withStation (stationIn .releasing)
     let v : State := { s with handoff := { s.handoff with busyBuffers := List.range n } }
     v.loader.mode = .active ∧ (v.station 9).valid = true ∧ (v.station 9).handoff = some .releasing ∧
       (v.station 9).forwardCount = 0 ∧ (v.station 9).markerPhase = .none ∧
       (∀ a, a < n → a ∈ v.handoff.busyBuffers) ∧ n ∉ v.handoff.busyBuffers) := by decide +kernel

/-! ### Witnesses: the controls -/

theorem witness_ClockSetsReplaceTheTime :
    let good : Word := 0x803B275F
    let late : Word := 0x803B2760
    (∀ m ∈ [Mode.active, .loading], (start (inMode m)).loader.mode = m ∧
      carries (start (inMode m)) (wr 8 good) ⟨8, good, 0xF⟩ = true ∧
      isClockSet (shadowWord (merged (start (inMode m)) (wr 8 good)) 8) 0xF = true ∧
      carries (start (inMode m)) (wr 8 late) ⟨8, late, 0xF⟩ = true ∧
      isClockSet (shadowWord (merged (start (inMode m)) (wr 8 late)) 8) 0xF = false) ∧
    (bits good 0 14 = 10079 ∧ bits good 16 6 = 59) ∧
    (withStation (stationIn .resident)).station 9 = stationIn .resident ∧
    ((inMode .active).station 9).valid = false := by decide +kernel

theorem witness_ProfileIndexAndBurstWritesActAtOnce :
    let u := start (inMode .active)
    u.loader.mode = .active ∧
    (∀ a ∈ [0x4000, 0x43FC], carries u (wr a 1) ⟨a, 1, 0xF⟩ = true ∧ 0x4000 ≤ a ∧ a < 0x4400) ∧
    (carries u (wrLanes 0x18C 1 5) ⟨0x18C, 5, 1⟩ = true ∧ lane 1 0 = true) ∧
    (carries u (wrLanes 0x18C 2 5) ⟨0x18C, 5, 2⟩ = true ∧ lane 2 0 = false) ∧
    (∀ a ∈ [0x110, 0x11C], carries u (wr a 0x7D000C8) ⟨a, 0x7D000C8, 0xF⟩ = true ∧ 0x110 ≤ a ∧ a < 0x120) := by
  decide +kernel

/-- A complete image and a set clock, with no maintenance profile, GAME_ACTIVE as given. -/
def readyToApply (game isOpen : Bool) : State :=
  let s : State := { inMode .active with
    image := { State.reset.image with session := .opened, count := 4, verified := 4, capacity := 4 }
    clock := { State.reset.clock with isSet := true }
    game := { active := game, quiet := none }
    shadow := [(0x18C / 4, 16)] }
  { s with gate := { s.gate with isOpen := isOpen } }

theorem witness_TheGateFollowsItsFiveConditions :
    ((readyToApply false false).gate.isOpen = false ∧ (gateReasons (readyToApply false false)).clear = true) ∧
    ((readyToApply true true).gate.isOpen = true ∧ (gateReasons (readyToApply true true)).clear = false) ∧
    ((readyToApply true false).gate.isOpen = false ∧ (gateReasons (readyToApply true false)).clear = false ∧
      gateReasons (readyToApply true false) ≠ (readyToApply true false).gate.reasons) ∧
    ((readyToApply false true).gate.isOpen = true ∧ (gateReasons (readyToApply false true)).clear = true ∧
      gateReasons (readyToApply false true) = (readyToApply false true).gate.reasons) := by decide +kernel

/-- ACTIVE with a session, a capacity of 4 and a pending block count. -/
def inSession (x : SessionState) (n : Word) : State :=
  { inMode .active with
    image := { State.reset.image with base := 0x400000, session := x, count := 4, capacity := 4 }
    shadow := [(0x184 / 4, n)] }

theorem witness_SessionCommandsOpenAndClose :
    (∀ c ∈ [(0 : Nat), 1, 2, 3, 255], ∀ n ∈ [(0 : Nat), 1, 4, 5], ∀ x ∈ [SessionState.none, .opened],
      let u := start (inSession x (BitVec.ofNat 32 n))
      let w := wr 0x188 (BitVec.ofNat 32 c)
      u.loader.mode = .active ∧ carries u w ⟨0x188, BitVec.ofNat 32 c, 0xF⟩ = true ∧
        bits (shadowWord (merged u w) 0x188) 0 8 = c ∧ bits (shadowWord (merged u w) 0x184) 0 16 = n ∧
        (merged u w).image.capacity = 4 ∧ (merged u w).image.session = x) ∧
    (carries (start (inSession .none 1)) (wrLanes 0x188 0xE 1) ⟨0x188, 1, 0xE⟩ = true ∧ lane 0xE 0 = false) := by
  decide +kernel

/-- A ring of three records, the middle one of two units, in a mode. -/
def ringOf (m : Mode) : State :=
  { inMode m with events := { State.reset.events with
      producer := 4, records := [⟨0, 1, .line, 0⟩, ⟨1, 2, .line, 0⟩, ⟨3, 1, .line, 0⟩] } }

theorem witness_ThresholdAndConsumerWritesReachTheEventWriter :
    (∀ m ∈ [Mode.active, .stopping], (start (ringOf m)).loader.mode = m ∧
      carries (start (ringOf m)) (wr 0x138 3) ⟨0x138, 3, 0xF⟩ = true ∧
      (∀ n ∈ [(1 : Nat), 2, 4, 5], carries (start (ringOf m)) (wr 0x140 (BitVec.ofNat 32 n))
          ⟨0x140, BitVec.ofNat 32 n, 0xF⟩ = true)) ∧
    (∀ off ∈ [0x120, 0x140, 0x160], let u := start { loadingAt off with events := (ringOf .active).events }
      u.loader.mode = .loading ∧ u.loader.load.isSome = true ∧
        carries u (wr 0x140 4) ⟨0x140, 4, 0xF⟩ = true) ∧
    ((start (ringOf .loading)).loader.mode = .loading ∧ (start (ringOf .loading)).loader.load = none ∧
      carries (start (ringOf .loading)) (wr 0x140 4) ⟨0x140, 4, 0xF⟩ = true) ∧
    consumerAccepts (ringOf .active).events 1 = true ∧ consumerAccepts (ringOf .active).events 2 = false ∧
    consumerAccepts (ringOf .active).events 4 = true ∧ consumerAccepts (ringOf .active).events 5 = false := by
  decide +kernel

/-! ### Witnesses: images, loads, events -/

/-- Block 1 FILLING by context 0 at a next offset, block 2 BAD, block 3 VERIFIED, block 0 EMPTY. -/
def blocks (next : Nat) : State :=
  { inSession .opened 4 with image :=
    { base := 0x400000, capacity := 4, session := .opened, count := 4, lastResult := .accepted
      blocks := [(1, .filling), (2, .bad), (3, .verified)], verified := 1
      contexts := [(0, { block := 1, next := next, crc := 0, last := 0 })] } }

theorem witness_ImageWritesAreJudgedBeatByBeat :
    (accepts (start (blocks 4)) (wr 0x400410 7) = true ∧
      regionOf (start (blocks 4)) (writeStart (wr 0x400410 7)) = .image 0x410) ∧
    (∀ b ∈ [(0, BlockState.empty), (1, .filling), (2, .bad), (3, .verified)], blockState (blocks 4) b.1 = b.2) ∧
    (∀ k ∈ [1, 254, 255], k < 256 ∧ (blocks k).image.contexts.find? (fun c => c.2.block = 1) =
      some (0, { block := 1, next := k, crc := 0, last := 0 })) ∧
    (let x : WrittenWord := ⟨0x400410, 7, 0xF, true⟩
     x.good = true ∧ x.mask = 0xF) ∧
    (crcBeat 0 0 ^^^ 0xFFFFFFFF#32 =
        shadowWord { blocks 255 with shadow := [(0x8004 / 4, 0xFFFFFFFF)] } (0x8000 + 4 * 1) ∧
      crcBeat 0 0 ^^^ 0xFFFFFFFF#32 ≠ shadowWord (blocks 255) (0x8000 + 4 * 1)) ∧
    (1 < 8 ∧ (∀ x ∈ (blocks 4).image.contexts, x.1 ≠ 1) ∧ ∀ a, a < 1 → ∃ x ∈ (blocks 4).image.contexts, x.1 = a) ∧
    (let cs : Table FillContext := (List.range 8).map (fun c => (c, { block := c, next := 1, crc := 0, last := 3 }))
     (∀ c, c < 8 → ∃ x ∈ cs, x.1 = c) ∧ cs.Pairwise (fun x y => x.1 < y.1)) := by decide +kernel

/-- R138: the context of the greatest age, and of equals the lowest, is taken, and its block becomes EMPTY. -/
theorem test_eviction :
    let cs (last : Nat → Ms) : Table FillContext :=
      (List.range 8).map (fun c => (c, { block := c, next := 1, crc := 0, last := last c }))
    let v (last : Nat → Ms) : State := { blocks 1 with
      clock := { State.reset.clock with now := 2 }
      image := { (blocks 1).image with count := 20, contexts := cs last, blocks := (List.range 8).map (·, .filling) } }
    (∀ x ∈ [(5, (5 : Nat)), (3, 3)], let t := takeContext 9 7 (v (fun c => if c = x.1 then 0xFFFFFFFE else 1))
      blockState t x.2 = .empty ∧ blockState t 9 = .filling ∧ (Table.find t.image.contexts x.2).map (·.block) = some 9) ∧
    blockState (takeContext 9 7 (v (fun _ => 1))) 0 = .empty := by decide +kernel

/-- A load whose read at an offset returns; the copy is that of section 9's checks with all rings of size 0. -/
theorem witness_LoadReadsGoOnFailOrSucceed :
    (∀ off ∈ [0, 0x140, 0xFE0, 0x3FFE0], let u := start (loadingAt off)
      u.bus.outstanding = [⟨.load off, (answer eight true).length, true⟩] ∧ u.loader.load.isSome = true ∧
        u.loader.map = some rings) ∧
    (start (waitingFor (.load 0) 8 false (inMode .loading))).bus.outstanding =
      [⟨.load 0, (answer eight true).length, false⟩] ∧
    (∃ b ∈ answer eight false, b.good = false) ∧ (∀ b ∈ answer eight true, b.good = true) ∧
    checkFailure 0 (regionMapOf []) = some (.ringSize, 0) ∧ checkFailure 0 rings = none := by decide +kernel

/-- R170, one map for each row: the reason and the subject it states. -/
theorem test_load_checks :
    let c (f : LinkConfig → LinkConfig) : RegionMap := { rings with links := { rings.links with radioB := f (ring 2) } }
    checkFailure 0 (c (fun x => { x with egressSize := 512 })) = some (.ringSize, 9) ∧
    checkFailure 0 (c (fun x => { x with stagingSize := 8, egressSize := 512 })) = some (.ringSize, 8) ∧
    checkFailure 0 { rings with capacity := 4097, imageBase := 1 } = some (.imageSize, 16) ∧
    checkFailure 0 (c (fun x => { x with receiveBase := 0x320020 })) = some (.ringAlign, 10) ∧
    checkFailure 0 { rings with imageBase := 0x400200 } = some (.imageAlign, 16) ∧
    checkFailure 0 { rings with imageBase := 0x400200, capacity := 0 } = none ∧
    checkFailure 0 (c (fun x => { x with egressStart := 16 })) = some (.startSlot, 9) ∧
    checkFailure 0 (c (fun x => { x with stagingBase := 0x4000000 })) = some (.range, 8) ∧
    checkFailure 0 { rings with imageBase := 0x3FFF000 } = none ∧
    checkFailure 0 { rings with imageBase := 0x3FFF400 } = some (.range, 16) ∧
    checkFailure 0 (c (fun x => { x with receiveBase := 0x100000 })) = some (.overlap, 10) ∧
    checkFailure 0 (c (fun x => { x with receiveBase := 0x100000, egressBase := 0x3FE00 })) = some (.overlap, 9) := by
  decide +kernel

/-- Rows of the table with a subject: the first, and the last two. -/
theorem witness_LoadReadsGoOnFailOrSucceed_table :
    IsRing 9 ∧ IsArea rings 16 ∧ ShareByte 0 0x40000 0x3FE00 0x200 ∧
    PairMeets { rings with imageBase := 0x100000 } 0 16 ∧
    (∀ off ∈ [(0x130, true), (0x140, true), (0x144, false), (0x5000, true), (0x6000, false)],
      off.1 % 4 = 0 ∧ silentAt off.1 = off.2) := by
  refine ⟨by unfold IsRing; decide, .inr ⟨rfl, by decide⟩, ⟨0x3FE00, by decide⟩,
    ⟨by decide, .inl (by unfold IsRing; decide), .inr ⟨rfl, by decide⟩, 0x100000, by decide +kernel⟩, by decide⟩

theorem witness_SuccessfulLoadsStartActive :
    (let r := recordOf (pendingCopy 0x10000 (inMode .loading)).shadow 9
     r.valid = true ∧ r.dwell ≠ 0 ∧ r.threshold ≠ 0 ∧ r.presence ≤ 1) ∧
    (recordOf [] 9).valid = false ∧ (stationIn .resident).valid = true ∧ Station.initial.valid = false ∧
    ((recordOf [] 9).request = 0 ∧ (recordOf (pendingCopy 0x3 (inMode .loading)).shadow 9).request ≠ 0) ∧
    (let waiting (x : State) (p : OwnAccess → Bool) := (x.bus.own.map OwnItem.access).filter p
     waiting (inMode .loading) (isStatusOf 9) = [] ∧ waiting (inMode .loading) isUpdateStatus = [] ∧
     (let v := streams [] [⟨0, 0, .stationStatus 9 2⟩, ⟨1, 0, .updateStatus 1⟩] .own
      waiting v (isStatusOf 9) = .stationStatus 9 2 :: [] ∧ waiting v isUpdateStatus = .updateStatus 1 :: [])) := by
  decide +kernel

theorem witness_EventsAreRoutedWrittenOrMissed :
    (kindRouting State.reset (eventKind (.queueDrop .wired .game 0)) = .off ∧
      kindRouting State.reset (eventKind (.malformed .wired 0)) = .now ∧
      kindRouting State.reset (eventKind (.poolStall .wired)) = .line) ∧
    (State.reset.events.missed = 0 ∧ 1 ≤ freeUnits State.reset.events) ∧
    freeUnits { State.reset.events with producer := 512 } = 0 ∧
    (eventWords (.handoffState 9 .absent .resident 0 0)).length = 4 ∧ 511 % 512 = 511 ∧
    OwnAccess.producerIndex ∈ (streams [] [⟨0, 0, .producerIndex⟩] .own).bus.own.map OwnItem.access := by decide +kernel

/-- R180, R162: the producer write that waits keeps its place and number, ahead of the further record's write. -/
theorem test_producer_write_waits :
    (raise (.malformed .wired 0) (raise (.malformed .wired 0) State.reset)).bus.own.map (fun o =>
        (o.number, decide (o.access = .producerIndex))) = [(0, false), (1, true), (2, false)] := by decide +kernel

/-- R122: a completion in STOPPING counts the send before the buffer is freed. -/
theorem test_sends_rise_in_stopping :
    let u := (flying (some eight) (markerEntry .inFlight) .stopping).setStation 9
      { stationIn .releasing with markerPhase := .sending, markerBuffer := some 2, markerSends := 1 }
    ((completeMarker .radioB 4 7 0 false u).station 9).markerSends = 2 ∧
      ((completeMarker .radioB 4 7 0 false u).station 9).markerPhase = .none := by decide +kernel

/-! ### Witnesses: laws every step keeps -/

/-- A state with a command waiting that meets every law's premise. -/
def running : State := { inMode .transparent with pending := [.millisecond] }

theorem witness_steps : ∃ t, step running = .next t := ⟨_, rfl⟩

theorem witness_EveryStepKeepsTheClockLaw : ClockLaw running := by unfold ClockLaw; decide +kernel

theorem witness_EveryStepKeepsTheRingLaw : RingLaw running := by
  refine ⟨?_, ?_, rfl, ?_, ?_, ?_, ?_⟩ <;> decide +kernel

theorem witness_EveryStepKeepsTheCanonicalForm : CanonicalLaw running := by
  refine ⟨?_, ?_, ?_, ?_, ?_, ?_, nofun⟩ <;> decide +kernel

theorem witness_EveryStepKeepsTheBufferLaw : BufferLaw running := by unfold BufferLaw; decide +kernel

theorem witness_EveryStepKeepsTheImageLaw : ImageLaw running :=
  ⟨witness_EveryStepKeepsTheCanonicalForm, nofun, nofun, by
    intro m h _
    cases h
    decide, fun h => absurd rfl h, nofun, rfl, nofun, List.nodup_nil, nofun⟩

theorem witness_EveryStepKeepsTheAirtimeLaw : ImageLaw running ∧ AirtimeLaw running := by
  refine ⟨witness_EveryStepKeepsTheImageLaw, fun l => ?_⟩
  cases l <;> refine ⟨fun c => ?_, ?_⟩ <;> first | (cases c <;> decide +kernel) | decide +kernel

/-- R33, R38: in ACTIVE mode with the tokens of link 2 at its burst of 40 the law holds, and with 41 it does not. -/
theorem witness_EveryStepKeepsTheAirtimeLaw_active :
    let v (t : Int) : State := { (inMode .active).setLink .radioB { LinkState.initial with tokens := t } with
      pending := [.millisecond], shadow := [(0x118 / 4, 0x280000)] }
    ImageLaw (v 40) ∧ AirtimeLaw (v 40) ∧ ¬ AirtimeLaw (v 41) := by
  refine ⟨⟨⟨?_, ?_, ?_, ?_, ?_, ?_, nofun⟩, nofun, nofun, by
    intro m h _
    cases h
    decide, fun h => absurd rfl h, nofun, rfl, nofun, List.nodup_nil, nofun⟩, fun l => ?_,
    fun h => absurd ((h .radioB).2.2.1 rfl) (by decide +kernel)⟩
  case refine_7 => cases l <;> refine ⟨fun c => ?_, ?_⟩ <;> first | (cases c <;> decide +kernel) | decide +kernel
  all_goals decide +kernel

theorem witness_EveryStepKeepsTheGateLaw : GateLaw running := ⟨nofun, fun _ => rfl⟩

theorem witness_EveryStepKeepsTheStationLaw : StationLaw running :=
  ⟨fun _ _ => ⟨rfl, rfl, rfl⟩, by
    have h : allStations.filter (stationMoves running) = [] := List.filter_eq_nil_iff.mpr (fun _ _ => Bool.false_ne_true)
    rw [h]; rfl⟩

/-- ACTIVE with entry 0 queued on link 2, entry 1 held by station 9, which sweeps, entry 2 in flight on slot 4 of
link 0, and every other entry free. -/
def pooled : State :=
  let s := inMode .active
  { s with
    pending := [.sweepStep 9]
    admission := { s.admission with freeSet := (List.range 2048).drop 3, stampCounter := 3 }
    entries := [(0, { frame .queued with stamp := 1 }), (1, frame .held),
      (2, { frame .inFlight with stamp := 2, egressSlot := some 4 })]
    links := { s.links with
      wired := { LinkState.initial with inFlight := [⟨4, 2, some eight⟩] }
      radioB := { LinkState.initial with queues := ⟨[], [], [0], []⟩, directQueued := 1 } }
    stations := [(9, { stationIn .departing with operation := .sweep, holdList := [1] })]
    gate := { s.gate with moving := 1 } }

theorem pooled_entry {i : Nat} (h : 3 ≤ i) : pooled.entry i = .unused := by
  have h0 : ¬ 0 = i := by omega
  have h1 : ¬ 1 = i := by omega
  have h2 : ¬ 2 = i := by omega
  simp [State.entry, Table.read, Table.find, pooled, h0, h1, h2]

theorem pooled_origin (i : Nat) : (pooled.entry i).origin = .direct := by
  rcases Nat.lt_or_ge i 3 with h | h
  · revert i; decide +kernel
  · rw [pooled_entry h]; rfl

theorem pooled_station (st : StationId) (h : st ≠ 9) : pooled.station st = .initial := by
  revert st; decide +kernel

theorem pooled_placed : PlacedOnce pooled := by
  refine ⟨?_, by decide +kernel⟩
  have h : placed pooled = (List.range 2048).drop 3 ++ (List.range 2048).take 3 := by
    have hq : allLinks.flatMap (fun l => allClasses.flatMap (fun c => pooled.queue l c)) = [0] := by decide +kernel
    have hh : allStations.flatMap (fun st => (pooled.station st).holdList) = [1] := by decide +kernel
    have hf : allLinks.flatMap (fun l => (pooled.link l).inFlight.map InFlight.entry) = [2] := by decide +kernel
    have ht : (List.range 2048).take 3 = [0, 1, 2] := by rw [List.take_range]; rfl
    rw [placed, hq, hh, hf, ht]
    simp [pooled]
  rw [h]
  exact List.perm_append_comm.trans (by rw [List.take_append_drop])

theorem pooled_tags : TagsMatch pooled := by
  refine ⟨fun i hi => pooled_entry ?_, ?_, ?_, ?_⟩
  · have h : pooled.admission.freeSet = (List.range 2048).drop 3 := by simp only [pooled]
    rw [h] at hi
    obtain ⟨k, hk, hi⟩ := List.mem_iff_getElem.mp hi
    rw [List.getElem_drop, List.getElem_range] at hi
    omega
  · intro l c
    cases l <;> cases c <;> decide +kernel
  · decide +kernel
  · intro l
    cases l <;> decide +kernel

theorem pooled_others : AnswersMatch pooled ∧ MovesMatch pooled ∧ MarkersMatch pooled ∧ ModesMatch pooled := by
  refine ⟨fun l => ?_, fun st => ?_, ⟨?_, ?_, ?_, ?_, ?_⟩, ?_⟩
  · cases l <;> exact ⟨by decide +kernel, nofun⟩
  · by_cases h : st = 9
    · subst h
      refine ⟨fun _ => .inr (.inl rfl), fun _ => rfl, nofun, fun h => absurd rfl h⟩
    · rw [pooled_station st h]
      exact ⟨fun h => absurd rfl h, fun h => absurd rfl h, nofun, fun h => absurd rfl h⟩
  · decide +kernel
  · decide +kernel
  · intro i hi; rw [pooled_origin] at hi; exact absurd hi (by decide)
  · intro i j hi; rw [pooled_origin] at hi; exact absurd hi (by decide)
  · intro st h
    have h2 : (pooled.station st).markerPhase = .none := by revert st; decide +kernel
    rw [h2] at h; exact absurd h (by decide)
  · exact ⟨fun h => absurd rfl h, fun h => absurd h (by decide +kernel), fun h => absurd rfl h⟩

theorem pooled_counts : CountsMatch pooled := by
  refine ⟨fun l => ?_, by decide +kernel⟩
  cases l <;> decide +kernel

/-- The premises of the pool's law, in a state whose next step sweeps. -/
theorem witness_EveryStepKeepsTheBufferLaw_pool :
    CanonicalLaw pooled ∧ StationLaw pooled ∧ PoolLaw pooled ∧ ∃ t, step pooled = .next t := by
  refine ⟨⟨?_, ?_, ?_, ?_, ?_, ?_, nofun⟩, ⟨?_, ?_⟩,
    ⟨pooled_placed, pooled_tags, ⟨?_, ?_, fun l => ?_⟩, pooled_counts, pooled_others⟩, ⟨_, rfl⟩⟩
  case refine_11 => cases l <;> decide +kernel
  all_goals decide +kernel

end Sys2Proof.Tests
end

