-- ==== Sys2Proof/Proofs/Rotation.lean ====
section
/-! PROOFS. The credit rotation of a pull (R46 to R48): one visit by the table of R47, and the bound of R48. -/

namespace Sys2Proof.Machine

open Sys2Proof

/-! ### One visit (R47) -/

section
variable {v : PerClass ClassView} {k : PerClass Int} {c : Cls} (n : Nat)

theorem rotate_chooses (he : (v.get c).eligible = true) (hk : ((v.get c).cost : Int) ≤ k.get c) :
    rotate v (n + 1) k c = some (c, k.put c (k.get c - (v.get c).cost)) := by
  simp [rotate, he, hk]

theorem rotate_adds_quantum (he : (v.get c).eligible = true) (hk : k.get c < ((v.get c).cost : Int)) :
    rotate v (n + 1) k c = rotate v n (k.put c (addQuantum (k.get c) (v.get c).quantum)) (clsAfter c) := by
  simp [rotate, he, Int.not_le.mpr hk]

theorem rotate_forgives (he : (v.get c).eligible = false) (hq : (v.get c).empty = true) :
    rotate v (n + 1) k c = rotate v n (k.put c (forgive (k.get c))) (clsAfter c) := by
  simp [rotate, he, hq]

theorem rotate_passes (he : (v.get c).eligible = false) (hq : (v.get c).empty = false) :
    rotate v (n + 1) k c = rotate v n k (clsAfter c) := by
  simp [rotate, he, hq]

/-- A visit to a class that is not eligible only moves on, and leaves the credits of the others as they were. -/
theorem rotate_of_not_eligible (he : (v.get c).eligible = false) :
    ∃ k' : PerClass Int, (∀ d, d ≠ c → k'.get d = k.get d) ∧ rotate v (n + 1) k c = rotate v n k' (clsAfter c) := by
  cases hq : (v.get c).empty with
  | true => exact ⟨_, fun d hd => PerClass.get_put_other k _ hd, rotate_forgives n he hq⟩
  | false => exact ⟨k, fun _ _ => rfl, rotate_passes n he hq⟩

/-- A visit to an eligible class chooses it, or adds its quantum and moves on. -/
theorem rotate_of_eligible (he : (v.get c).eligible = true) :
    (∃ q, rotate v (n + 1) k c = some (c, q)) ∨
    (k.get c < ((v.get c).cost : Int) ∧
      rotate v (n + 1) k c = rotate v n (k.put c (addQuantum (k.get c) (v.get c).quantum)) (clsAfter c)) := by
  rcases lt_or_ge (k.get c) ((v.get c).cost : Int) with hk | hk
  · exact .inr ⟨hk, rotate_adds_quantum n he hk⟩
  · exact .inl ⟨_, rotate_chooses n he hk⟩

end

/-- Settles O27: the four rows of R47's table. -/
theorem rotationVisitsFollowTheTable : Obligations.RotationVisitsFollowTheTable := by
  intro v n k c x next
  have hnext : next = clsAfter c := by cases c <;> rfl
  rw [hnext]
  exact ⟨rotate_chooses n, rotate_adds_quantum n, rotate_forgives n, rotate_passes n⟩

/-! ### The bound on the visits (R48) -/

/-- The visits the rotation makes from class `c` on before it reaches class `e`. -/
def visitsBefore (e c : Cls) : Nat := (clsCode e + 4 - clsCode c) % 4

theorem visitsBefore_le (e c : Cls) : visitsBefore e c ≤ 3 := Nat.le_of_lt_succ (Nat.mod_lt _ (by decide))

theorem visitsBefore_clsAfter_self (e : Cls) : visitsBefore e (clsAfter e) = 3 := by
  cases e <;> rfl

theorem visitsBefore_clsAfter {e c : Cls} (h : c ≠ e) : visitsBefore e (clsAfter c) + 1 = visitsBefore e c := by
  revert h; cases e <;> cases c <;> decide

/-- Where the eligible class `e` needs at most `m` quantum additions, the rotation chooses within the visits up to
`e` and four more for each addition. -/
theorem rotate_chooses_within {v : PerClass ClassView} {e : Cls} (he : (v.get e).eligible = true)
    (hcost : (v.get e).cost ≤ 65535) (hquantum : 64 ≤ (v.get e).quantum) (n m : Nat) (k : PerClass Int) (c : Cls)
    (hm : ((v.get e).cost : Int) ≤ k.get e + 64 * m) (hn : visitsBefore e c + 4 * m < n) :
    ∃ d q, rotate v n k c = some (d, q) ∧ (v.get d).eligible = true := by
  induction n generalizing m k c with
  | zero => omega
  | succ n ih =>
    cases hc : (v.get c).eligible with
    | false =>
      have hce : c ≠ e := by rintro rfl; simp [he] at hc
      obtain ⟨k', hkeep, hvisit⟩ := rotate_of_not_eligible n (k := k) hc
      have hnear := visitsBefore_clsAfter hce
      rw [hvisit]
      exact ih m k' (clsAfter c) (by rwa [hkeep e hce.symm]) (by omega)
    | true =>
      obtain ⟨q, hchosen⟩ | ⟨hshort, hvisit⟩ := rotate_of_eligible n (k := k) hc
      · exact ⟨c, q, hchosen, hc⟩
      rw [hvisit]
      by_cases hce : c = e
      · subst hce
        have hround := visitsBefore_clsAfter_self c
        refine ih (m - 1) _ (clsAfter c) ?_ (by omega)
        rw [PerClass.get_put_same, addQuantum]
        omega
      · have hnear := visitsBefore_clsAfter hce
        refine ih m _ (clsAfter c) ?_ (by omega)
        rwa [PerClass.get_put_other k _ (Ne.symm hce)]

/-- The deepest debt meets the dearest head after 2048 additions of the least quantum. -/
theorem rotate_bound_chooses {v : PerClass ClassView} {e : Cls} (he : (v.get e).eligible = true)
    (hcost : (v.get e).cost ≤ 65535) (hquantum : 64 ≤ (v.get e).quantum) {k : PerClass Int}
    (hdebt : -65536 ≤ k.get e) (c : Cls) :
    ∃ d q, rotate v Config.rotationBound k c = some (d, q) ∧ (v.get d).eligible = true := by
  have hnear := visitsBefore_le e c
  exact rotate_chooses_within he hcost hquantum _ 2048 k c (by omega) (by show _ < 8196; omega)

theorem anyEligible_iff (v : PerClass ClassView) : anyEligible v = true ↔ ∃ d, (v.get d).eligible = true := by
  have hall : ∀ d, d ∈ allClasses := fun d => by cases d <;> decide
  simp [anyEligible, hall]

theorem rotation_of_none_eligible {v : PerClass ClassView} (h : ∀ d, (v.get d).eligible = false) (k : PerClass Int)
    (c : Cls) : rotation v k c = none := by
  have hnone : ¬ anyEligible v = true := by simp [anyEligible_iff, h]
  rw [rotation, if_neg hnone]

theorem rotation_of_eligible {v : PerClass ClassView} (h : ∃ d, (v.get d).eligible = true) (k : PerClass Int)
    (c : Cls) : rotation v k c = rotate v Config.rotationBound k c := by
  rw [rotation, if_pos ((anyEligible_iff v).mpr h)]

/-! ### The quanta (R31) -/

theorem clamp_mem {lo hi : Nat} (h : lo ≤ hi) (n : Nat) : lo ≤ clamp lo hi n ∧ clamp lo hi n ≤ hi := by
  unfold clamp; omega

theorem quantum_mem (s : State) (l : Link) (c : Cls) : 64 ≤ quantum s l c ∧ quantum s l c ≤ 16383 :=
  clamp_mem (by decide) _

/-! ### What head cleanup leaves of the rotation -/

/-- What a link keeps for the rotation from pull to pull: its credits and its pointer. -/
def State.rotationOf (s : State) (l : Link) : PerClass Int × Cls := ((s.link l).credits, (s.link l).pointer)

theorem State.rotationOf_congr {s t : State} (h : t.links = s.links) (l : Link) :
    t.rotationOf l = s.rotationOf l := by
  rw [rotationOf, rotationOf, link_congr h]

/-- An update of a link that keeps credits and pointer. -/
theorem State.rotationOf_setLink (s : State) (l : Link) {x : LinkState} (hc : x.credits = (s.link l).credits)
    (hp : x.pointer = (s.link l).pointer) : (s.setLink l x).rotationOf l = s.rotationOf l := by
  rw [rotationOf, rotationOf, link_setLink_same, hc, hp]

theorem raise_rotationOf (e : Event) (l : Link) (s : State) : (raise e s).rotationOf l = s.rotationOf l :=
  State.rotationOf_congr (by simp) l

theorem answerEmpty_rotationOf (r : EgressRead) (l : Link) (s : State) :
    (answerEmpty r s).rotationOf l = s.rotationOf l :=
  State.rotationOf_congr (by simp) l

theorem testLowWater_rotationOf (l : Link) (s : State) : (testLowWater l s).rotationOf l = s.rotationOf l := by
  unfold testLowWater
  dsimp only
  split
  · rfl
  split
  · exact State.rotationOf_setLink s l rfl rfl
  split
  · exact (raise_rotationOf _ l _).trans (State.rotationOf_setLink s l rfl rfl)
  · rfl

theorem setDirectQueued_rotationOf (l : Link) (n : Nat) (s : State) :
    (setDirectQueued l n s).rotationOf l = s.rotationOf l :=
  (testLowWater_rotationOf l _).trans (State.rotationOf_setLink s l rfl rfl)

theorem countLeave_rotationOf (l : Link) (i : Nat) (s : State) : (countLeave l i s).rotationOf l = s.rotationOf l := by
  unfold countLeave
  split
  · exact setDirectQueued_rotationOf l _ s
  · rfl

theorem leaveQueue_rotationOf (l : Link) (c : Cls) (i : Nat) (s : State) :
    (leaveQueue l c i s).rotationOf l = s.rotationOf l :=
  (countLeave_rotationOf l i _).trans (State.rotationOf_setLink s l rfl rfl)

theorem cleanHead_rotationOf (l : Link) (c : Cls) (n : Nat) (s : State) :
    (cleanHead l c n s).rotationOf l = s.rotationOf l := by
  induction n generalizing s with
  | zero => rfl
  | succ n ih =>
    unfold cleanHead
    split
    · rfl
    next i _ _ =>
      have removed {t : State} (ht : t.links = (leaveQueue l c i s).links) :
          (cleanHead l c n t).rotationOf l = s.rotationOf l :=
        (ih t).trans ((State.rotationOf_congr ht l).trans (leaveQueue_rotationOf l c i s))
      split
      · rfl
      all_goals exact removed (by simp)

theorem cleanHeads_rotationOf (l : Link) (s : State) : (cleanHeads l s).rotationOf l = s.rotationOf l :=
  forEach_keeps (fun t => t.rotationOf l) _ allClasses s (fun c t => cleanHead_rotationOf l c _ t)

/-! ### A pull that chooses nothing (R42, R48) -/

theorem strictDue_eq_false {s : State} {l : Link} (h : s.queue l .game = [] ∨ (s.link l).tokens ≤ 0) :
    strictDue s l = false := by
  rcases h with h | h <;> simp [strictDue, h]

theorem classViews_get (s : State) (l : Link) (c : Cls) : (classViews s l).get c = classView s l c := by
  cases c <;> rfl

/-- Without strict service and with no class eligible, the read gets the empty descriptor. -/
theorem pull_of_none_eligible {l : Link} {s : State} (r : EgressRead)
    (hstrict : (cleanHeads l s).queue l .game = [] ∨ ((cleanHeads l s).link l).tokens ≤ 0)
    (hnone : ∀ d, (classView (cleanHeads l s) l d).eligible = false) :
    pull l r s = answerEmpty r (cleanHeads l s) := by
  have hviews : ∀ d, ((classViews (cleanHeads l s) l).get d).eligible = false := fun d => by
    rw [classViews_get, hnone d]
  simp [pull, choose, strictDue_eq_false hstrict, rotation_of_none_eligible hviews]

/-- Settles O28: the bound by the visits to one eligible class, the empty answer by the frame of head cleanup. -/
theorem theRotationAlwaysChooses : Obligations.TheRotationAlwaysChooses := by
  refine ⟨fun v k c => ⟨fun h => rotation_of_none_eligible h k c, ?_⟩,
    fun v l c => ⟨(quantum_mem v l c).1, (quantum_mem v l c).2, rfl⟩, ?_⟩
  · rintro ⟨e, he⟩ hrange
    obtain ⟨hcost, hquantum, hdebt, -⟩ := hrange e
    obtain ⟨d, q, hchosen, hd⟩ := rotate_bound_chooses he hcost hquantum hdebt c
    exact ⟨d, q, (rotation_of_eligible ⟨e, he⟩ k c).trans hchosen, hchosen, hd⟩
  · intro l r v t s hstrict hnone
    have hpull : t = answerEmpty r s := pull_of_none_eligible r hstrict hnone
    have hkept : t.rotationOf l = v.rotationOf l := by
      rw [hpull, answerEmpty_rotationOf, cleanHeads_rotationOf]
    obtain ⟨hcredits, hpointer⟩ := Prod.mk.inj hkept
    exact ⟨hpull, hcredits, hpointer⟩

end Sys2Proof.Machine
end

