-- ==== Sys2Proof/Proofs/Smoothing.lean ====
section
/-! PROOFS. The smoothed signal of a station (R76): its step by a sample, its band, where it rests, and which
operations on the station table clear or keep it. -/

namespace Sys2Proof.Machine

open Sys2Proof

/-! ### The step of a sample -/

@[simp] theorem smooth_none (x : Int) : smooth none x = 16 * x := rfl

theorem smooth_some (v x : Int) : smooth (some v) x = v + (16 * x - v) / 8 := rfl

/-- The step is the quotient of the difference by 8, rounded toward minus infinity. -/
theorem smooth_of_floor {v x q r : Int} (hd : 16 * x - v = 8 * q + r) (hr0 : 0 ≤ r) (hr8 : r < 8) :
    smooth (some v) x = v + q := by
  have hq : (16 * x - v) / 8 = q := by omega
  rw [smooth_some, hq]

theorem min_le_smooth (v x : Int) : min v (16 * x) ≤ smooth (some v) x := by
  rw [smooth_some]; omega

theorem smooth_le_max (v x : Int) : smooth (some v) x ≤ max v (16 * x) := by
  rw [smooth_some]; omega

/-- Sixteen times a sample of −128 to −1 dBm lies in the band of a signal, so no saturation is needed. -/
theorem smooth_mem_band {o : Option Int} {x : Int} (hx : -128 ≤ x ∧ x ≤ -1)
    (ho : ∀ v, o = some v → -2048 ≤ v ∧ v ≤ -16) : -2048 ≤ smooth o x ∧ smooth o x ≤ -16 := by
  cases o with
  | none => rw [smooth_none]; omega
  | some v =>
    have hv := ho v rfl
    have hlow := min_le_smooth v x
    have hhigh := smooth_le_max v x
    omega

/-- Above the level the difference is negative, and rounded down it moves the signal by at least one. -/
theorem smooth_lt_of_above {v x : Int} (h : 16 * x < v) : smooth (some v) x < v := by
  have hstep : (16 * x - v) / 8 < 0 := Int.ediv_neg_of_neg_of_pos (by omega) (by decide)
  rw [smooth_some]; omega

theorem smooth_eq_self_iff (v x : Int) : smooth (some v) x = v ↔ 0 ≤ 16 * x - v ∧ 16 * x - v ≤ 7 := by
  have hrest : (16 * x - v) / 8 = 0 ↔ 0 ≤ 16 * x - v ∧ 16 * x - v ≤ 7 := by omega
  rw [smooth_some, ← hrest, add_eq_left]

/-! ### Which operations keep the signals -/

/-- An update of one station that keeps its signal keeps the signal of every station. -/
theorem State.signal_setStation {s : State} {k : StationId} {x : Station} (hx : x.signal = (s.station k).signal)
    (st : StationId) : ((s.setStation k x).station st).signal = (s.station st).signal := by
  rw [station_setStation]
  split
  next h => rw [hx, h]
  next => rfl

theorem clearPoints_signal (k st : StationId) (s : State) :
    ((clearPoints k s).station st).signal = (s.station st).signal := by
  rw [State.station_congr (by simp : (clearPoints k s).stations = s.stations)]

theorem dropMarker_signal (k st : StationId) (s : State) :
    ((dropMarker k s).station st).signal = (s.station st).signal := by
  have hstations : (dropMarker k s).stations =
      (s.setStation k { s.station k with markerPhase := .none, markerBuffer := none }).stations := rfl
  rw [State.station_congr hstations]
  exact State.signal_setStation (by rfl) st

/-- A stop rewrites a station's working state and may drop its marker; none of these writes a signal. -/
theorem stopStation_signal (k st : StationId) (s : State) :
    ((stopStation k s).station st).signal = (s.station st).signal := by
  unfold stopStation
  cases (s.station k).markerPhase with
  | waitBuffer | waitEntry => simp only [dropMarker_signal, clearPoints_signal, State.signal_setStation]
  | none | filling | sending => simp only [clearPoints_signal, State.signal_setStation]

/-- The reset input leaves every station as the reset table gives it. -/
theorem State.station_afterReset (plc : BitVec 3) (p : List Instr) (o : List Outstanding) (st : StationId) :
    (State.afterReset plc p o).station st = .initial := rfl

/-- Settles O34: the arithmetic of the step, and what reset, validation, invalidation and stop do to the signal. -/
theorem samplesSmoothTheSignal : Obligations.SamplesSmoothTheSignal := by
  refine ⟨smooth_none, fun v x q r => smooth_of_floor, fun v x => ⟨min_le_smooth v x, smooth_le_max v x⟩,
    fun o x hlow hhigh => smooth_mem_band ⟨hlow, hhigh⟩, fun v x => ⟨smooth_lt_of_above, smooth_eq_self_iff v x⟩,
    fun plc s st => ⟨_, rfl, ?_⟩, fun r n y => ⟨rfl, rfl⟩, stopStation_signal⟩
  rw [State.station_afterReset]
  rfl

end Sys2Proof.Machine
end
